-- ==== Sys2Proof/Word.lean ====
section
/-! DEFINITION. The byte and the names of the two lanes: the plainest words every other file uses.
A page, a frame and a record are lists of bytes, first stored or shifted byte first (12 R174). -/

namespace Sys2Proof

/-- One byte of a page, a frame or a host request. -/
abbrev Byte := BitVec 8

/-- The value of an erased byte (12 R174). -/
def erasedByte : Byte := 0xFF#8

/-- An array port of the bridge (00_scope, Terms: Lane). -/
inductive LaneId where
  | a
  | b
deriving DecidableEq, Repr

/-- The other lane. -/
def LaneId.other : LaneId → LaneId
  | .a => .b
  | .b => .a

/-- A physical page: its lane and its index on that lane (01 R3). -/
structure PPage where
  lane : LaneId
  index : Nat
deriving DecidableEq, Repr

end Sys2Proof
end

