-- ==== Sys2Proof/Config.lean ====
section
/-! DEFINITION. What the part fixes: capacities of its lists, the limits of its counters and the defaults and
ranges of its parameters. The spec leaves no value open that the part computes with, so there is no free value
here (INVENTORY.md, What the manual leaves open). -/

namespace Sys2Proof.Config

/-- Bytes of a physical page: 64 data, 8 check, 16 tag (01 R4, 12 R174). -/
def pageBytes : Nat := 88

/-- Bytes of a logical page (01 R1). -/
def dataBytes : Nat := 64

/-- Slots of the staging pool (02 R23). -/
def slotCount : Nat := 16

/-- The FREE count below which an allocation seals the oldest OPEN slot (02 R35). -/
def pressureLevel : Nat := 4

/-- The FREE count below which no internal slot is created (02 R43). -/
def internalSlotFloor : Nat := 5

/-- Verify failures after which a slot is dropped (05 R89). -/
def maxAttempts : Nat := 3

/-- Notices the queue holds (11 R168). -/
def noticeCapacity : Nat := 32

/-- The value at which the dropped count saturates (11 R169). -/
def droppedMax : Nat := 65535

/-- Entries of the relocation list (07 R122). -/
def relocCapacity : Nat := 8

/-- Grants that may pass over a waiting COMMIT claim (06 R101). -/
def passOverLimit : Nat := 8

/-- The all-ones sequence, never taken: a counter that holds it is spent (01 R16). -/
def seqAllOnes : Nat := 0xFFFFFFFFFFFF

/-- The value at which a wear count saturates (01 R8). -/
def wearMax : Nat := 16777215

/-- The value at which a soft count saturates (01 R9). -/
def softMax : Nat := 255

/-- The smallest legal capacity (01 R2). -/
def minCapacity : Nat := 16

/-- Defaults of Table 11.2 (11 R166). -/
def defaultHoldTime : Nat := 2000
def defaultPatrolInterval : Nat := 100
def defaultMigThreshold : Nat := 20000
def defaultWearLimit : Nat := 1000000
def defaultSoftLimit : Nat := 4
def defaultReserveFloor : Nat := 8
def defaultProgLimit : Nat := 10

/-- Parameter bytes a command frame may carry (11 R160). -/
def maxParams : Nat := 16

/-- What is added to the index of a released copy on lane B in a notice's detail (05 R86). -/
def laneBDetail : Nat := 32768

end Sys2Proof.Config
end

