-- ==== Sys2Proof/Machine/Codes.lean ====
section
/-! DEFINITION. Numbers, check codes and tags as bytes: the big-endian fields of 12 R174 and R177, the CRC-8, the
CRC-16 and the check byte of 12 R175, the tag of 12 R174 (Tables 12.1 and 12.2). -/

namespace Sys2Proof.Machine

/-! ### Multi-byte numbers, most significant byte first (12 R174, R177) -/

/-- The number w as n bytes, most significant first; higher bits are lost. -/
def beBytes : Nat → Nat → List Byte
  | 0, _ => []
  | n + 1, w => beBytes n (w / 256) ++ [BitVec.ofNat 8 w]

/-- The number the bytes spell, most significant first. -/
def beNat (bs : List Byte) : Nat := bs.foldl (fun acc b => acc * 256 + b.toNat) 0

/-! ### Cyclic redundancy checks (12 R175) -/

/-- The bits of a byte, most significant first: the order in which both CRCs take them. -/
def msbFirst (b : Byte) : List Bool :=
  [b.getLsbD 7, b.getLsbD 6, b.getLsbD 5, b.getLsbD 4, b.getLsbD 3, b.getLsbD 2, b.getLsbD 1, b.getLsbD 0]

/-- One bit into the CRC-16 register, polynomial x^16 + x^12 + x^5 + 1. -/
def crc16Bit (c : BitVec 16) (b : Bool) : BitVec 16 :=
  if (c.getLsbD 15) ^^ b then (c <<< 1) ^^^ 0x1021#16 else c <<< 1

/-- The CRC-16 of a tag or a record: register all ones at the start, not inverted at the end. -/
def crc16 (bs : List Byte) : BitVec 16 := (bs.flatMap msbFirst).foldl crc16Bit 0xFFFF#16

/-- One bit into the CRC-8 register, polynomial x^8 + x^2 + x + 1. -/
def crc8Bit (c : BitVec 8) (b : Bool) : BitVec 8 :=
  if (c.getLsbD 7) ^^ b then (c <<< 1) ^^^ 0x07#8 else c <<< 1

/-- The CRC-8 of a maintenance frame: register 0 at the start, not inverted (11 R160). -/
def crc8 (bs : List Byte) : Byte := (bs.flatMap msbFirst).foldl crc8Bit 0#8

/-! ### The check byte of a codeword (12 R175) -/

/-- The number is a power of two. -/
def isPow2 (n : Nat) : Bool := n != 0 && (n &&& (n - 1)) == 0

/-- The positions of the data bits: 3 to 71 without the powers of two, ascending; there are 64. -/
def dataPositions : List Nat := (List.range 72).filter (fun p => 3 ≤ p && !isPow2 p)

/-- Data bit d is bit d mod 8 of codeword byte d / 8, bit 0 the least significant. -/
def dataBits (cw : List Byte) : List Bool :=
  cw.flatMap (fun b => (List.range 8).map b.getLsbD)

/-- Check bits 0 to 6 as one number: bit k is the exclusive-or of the data bits whose position has bit k set, so
the number is the exclusive-or of the positions of the data bits that are set. -/
def checkLow (bits : List Bool) : Nat :=
  (bits.zip dataPositions).foldr (fun p acc => if p.1 then p.2 ^^^ acc else acc) 0

/-- The exclusive-or of bits. -/
def parity (bits : List Bool) : Bool := bits.foldr (· ^^ ·) false

/-- The bits 0 to n-1 of a number. -/
def lowBits (n w : Nat) : List Bool := (List.range n).map w.testBit

/-- The check byte of a codeword: bit 7 makes the parity of all 72 bits even. -/
def checkByte (cw : List Byte) : Byte :=
  let low := checkLow (dataBits cw)
  BitVec.ofNat 8 (low + (if parity (dataBits cw) ^^ parity (lowBits 7 low) then 128 else 0))

/-- A decode outcome of one codeword (07 R116). -/
inductive CwOutcome where
  | clean
  | corrected
  | uncorrectable
deriving DecidableEq, Repr

/-- The codeword with data bit d inverted. -/
def flipBit (cw : List Byte) (d : Nat) : List Byte :=
  cw.set (d / 8) (cw.getD (d / 8) 0#8 ^^^ (1#8 <<< (d % 8)))

/-- Decoding one codeword: its outcome and its data bytes as handed on (07 R116, 12 R175). -/
def decodeCodeword (cw : List Byte) (chk : Byte) : CwOutcome × List Byte :=
  let bits := dataBits cw
  let syndrome := checkLow bits ^^^ (chk.toNat % 128)
  let odd := parity bits ^^ parity (lowBits 8 chk.toNat)
  if odd then
    if syndrome = 0 || isPow2 syndrome then (.corrected, cw)
    else
      match dataPositions.idxOf? syndrome with
      | some d => (.corrected, flipBit cw d)
      | none => (.uncorrectable, cw)
  else if syndrome = 0 then (.clean, cw)
  else (.uncorrectable, cw)

/-! ### Codewords and masks of a page -/

/-- Codeword i of the data bytes: bytes 8i to 8i + 7 (12 R174). -/
def codeword (data : List Byte) (i : Nat) : List Byte := (data.drop (8 * i)).take 8

/-- The eight check bytes of 64 data bytes (07 R115). -/
def checkBytes (data : List Byte) : List Byte := (List.range 8).map (fun i => checkByte (codeword data i))

/-- A mask with bit i set when f i holds, for the codewords 0 to 7. -/
def cwMask (f : Nat → Bool) : BitVec 8 := BitVec.ofFnLE (fun i : Fin 8 => f i.val)

/-! ### The tag (12 R174, Tables 12.1 and 12.2) -/

/-- Tag kinds, Table 12.2. -/
def kindDataHost : Byte := 0x01#8
def kindDataRelocate : Byte := 0x02#8
def kindDataMigrate : Byte := 0x03#8
def kindRetired : Byte := 0x0C#8
def kindSystem : Byte := 0x0E#8

/-- The three DATA kinds, which no reader distinguishes (05 R83). -/
def isDataKind (k : Byte) : Bool := k == kindDataHost || k == kindDataRelocate || k == kindDataMigrate

/-- The fields of a tag. -/
structure Tag where
  kind : Byte
  logical : Nat
  seq : Nat
  wear : Nat
  soft : Nat
  poison : BitVec 8
deriving DecidableEq, Repr

/-- The first fourteen bytes of a tag, those its CRC covers. -/
def Tag.body (t : Tag) : List Byte :=
  [t.kind] ++ beBytes 2 t.logical ++ beBytes 6 t.seq ++ beBytes 3 t.wear ++ beBytes 1 t.soft ++ [t.poison]

/-- The sixteen bytes of a tag. -/
def Tag.bytes (t : Tag) : List Byte := t.body ++ beBytes 2 (crc16 t.body).toNat

/-- What sixteen tag bytes show before any comparison with the map (07 R117, 09 R144). -/
inductive TagRead where
  /-- All sixteen bytes are 0xFF. -/
  | blank
  /-- Not blank, and the CRC-16 does not match the first fourteen bytes. -/
  | badCrc
  /-- The CRC-16 matches. -/
  | good (tag : Tag)
deriving DecidableEq, Repr

/-- Reading sixteen tag bytes. -/
def readTag (bs : List Byte) : TagRead :=
  if bs.all (· == erasedByte) then .blank
  else if crc16 (bs.take 14) = BitVec.ofNat 16 (beNat ((bs.drop 14).take 2)) then
    .good
      { kind := bs.getD 0 0#8
        logical := beNat ((bs.drop 1).take 2)
        seq := beNat ((bs.drop 3).take 6)
        wear := beNat ((bs.drop 9).take 3)
        soft := beNat ((bs.drop 12).take 1)
        poison := bs.getD 13 0#8 }
  else .badCrc

/-- The 88 bytes of a programmed page: data, check bytes, tag (12 R174). -/
def pageImage (data : List Byte) (t : Tag) : List Byte := data ++ checkBytes data ++ t.bytes

/-! ### Reading a page through the check unit (07 R116, R117) -/

/-- The eight codewords of a page as decoded, each with its outcome. -/
def decodePage (bytes : List Byte) : List (CwOutcome × List Byte) :=
  (List.range 8).map (fun i => decodeCodeword (codeword bytes i) (bytes.getD (64 + i) 0#8))

/-- The sixteen tag bytes of a page. -/
def tagBytes (bytes : List Byte) : List Byte := (bytes.drop 72).take 16

/-- The tag outcome of a decoded read (07 R117). -/
inductive TagOutcome where
  | blank
  | bad
  | foreign
  | good
deriving DecidableEq, Repr

/-- The tag outcome: the CRC matches, and the kind, logical page and sequence agree with the entry (07 R117). -/
def tagOutcome (tr : TagRead) (logical seq : Nat) : TagOutcome :=
  match tr with
  | .blank => .blank
  | .badCrc => .bad
  | .good t => if isDataKind t.kind && t.logical == logical && t.seq == seq then .good else .foreign

/-- The poison mask the tag shows; no flag counts when the tag is not good. -/
def tagPoison (tr : TagRead) : BitVec 8 :=
  match tr with
  | .good t => t.poison
  | _ => 0#8

/-- What the check unit hands a reader (07 R118). -/
structure Decoded where
  /-- The 64 data bytes: corrected in the codewords whose final outcome is CORRECTED, as read in every other (07 R116,
  Table 7.2, R125, R126). -/
  data : List Byte
  /-- The eight final outcomes of Table 7.1. -/
  outcomes : List CwOutcome
  tag : TagOutcome
  /-- Codewords newly lost: UNCORRECTABLE under a good tag with their poison flag clear. -/
  newlyLost : BitVec 8
  /-- Codewords already poisoned in a good tag. -/
  poisoned : BitVec 8
deriving DecidableEq, Repr

/-- The final outcome of a codeword, Table 7.1. -/
def finalOutcome (tag : TagOutcome) (flag : Bool) (o : CwOutcome) : CwOutcome :=
  match tag with
  | .good => if flag then .uncorrectable else o
  | _ => .uncorrectable

/-- The bytes of a codeword as its reader takes them: corrected under the final outcome CORRECTED, as read under every
other, so that the bytes of a poisoned codeword are carried as they stand (07 R116, R126, Table 7.2). -/
def handedBytes (final : CwOutcome) (asRead decoded : List Byte) : List Byte :=
  match final with
  | .corrected => decoded
  | .clean => asRead
  | .uncorrectable => asRead

/-- A decoded read of a mapped copy whose entry holds the logical page and the sequence (07 R116, R117). -/
def decodeRead (bytes : List Byte) (logical seq : Nat) : Decoded :=
  let tr := readTag (tagBytes bytes)
  let tag := tagOutcome tr logical seq
  let flags := tagPoison tr
  let cws := decodePage bytes
  let raw := fun i => (cws.getD i (.clean, [])).1
  let final := fun i => finalOutcome tag (flags.getLsbD i) (raw i)
  { data := (List.range 8).flatMap (fun i => handedBytes (final i) (codeword bytes i) (cws.getD i (.clean, [])).2)
    outcomes := (List.range 8).map final
    tag := tag
    newlyLost := cwMask (fun i => tag == .good && !flags.getLsbD i && raw i == .uncorrectable)
    poisoned := cwMask (fun i => tag == .good && flags.getLsbD i) }

/-- Some codeword has the outcome. -/
def Decoded.has (d : Decoded) (o : CwOutcome) : Bool := d.outcomes.contains o

/-- How many codewords have the outcome. -/
def Decoded.count (d : Decoded) (o : CwOutcome) : Nat := d.outcomes.count o

/-- The outcome of codeword i. -/
def Decoded.outcome (d : Decoded) (i : Nat) : CwOutcome := d.outcomes.getD i .clean

/-- The poison found by a read: its UNCORRECTABLE codewords (07 R118). -/
def Decoded.poisonFound (d : Decoded) : BitVec 8 := cwMask (fun i => d.outcome i == .uncorrectable)

/-- The detail of the UNCORRECTABLE notice (07 R119): newly lost in the low byte, already poisoned in the high
byte, 0xFFFF after a tag failure. -/
def Decoded.detail (d : Decoded) : Nat :=
  if d.tag = .good then d.newlyLost.toNat + 256 * d.poisoned.toNat else 0xFFFF

end Sys2Proof.Machine
end

