-- ==== Sys2Proof/Syntax.lean ====
section
/-! DEFINITION. The commands of the block: one constructor for every row of spec/opcode_table.json, with the
operands the command brings from outside. A maintenance command carries the parameter bytes of its frame in the
order they are shifted (12 Table 12.4); the eight SET_PARAM rows carry the bytes that follow the parameter number. -/

namespace Sys2Proof

/-- The four combinations of the SIZE straps; the fourth is read as 1024 pages per lane (01 R3). -/
inductive SizeStrap where
  | s1024
  | s2048
  | s4096
  | fourth
deriving DecidableEq, Repr

/-- The levels of the strap inputs (01 R3). -/
structure Straps where
  twoLanes : Bool
  size : SizeStrap
deriving DecidableEq, Repr

/-- A command of the block: one row of spec/opcode_table.json. -/
inductive Instr where
  /-- POWER_ON: the strap levels and the levels of PWARN and WPROT as power comes (09 R138, 04 R67). -/
  | powerOn (straps : Straps) (pwarn wprot : Bool)
  /-- RESET_ASSERTION: the strap levels as they stand at the assertion (01 R3). -/
  | resetAssertion (straps : Straps)
  | resetDeassertion
  | pwarnAssertion
  | pwarnDeassertion
  | wprotAssertion
  | wprotDeassertion
  /-- HOST_WRITE: the start address and the data bytes in address order (03 R48). -/
  | hostWrite (addr : Nat) (data : List Byte)
  /-- HOST_READ: the start address and the length (03 R48). -/
  | hostRead (addr len : Nat)
  /-- HOLD_TIMER_EXPIRY: the number of the slot whose deadline passes (02 R34). -/
  | holdTimerExpiry (slot : Nat)
  | patrolTimerExpiry
  | readTimeout (lane : LaneId)
  | programTimeout (lane : LaneId)
  | readyTimeout (lane : LaneId)
  | readySeen (lane : LaneId)
  /-- The grants carry the ready line as the lane senses it before the operation (06 R97). -/
  | hostReadGrant (lane : LaneId) (ready : Bool)
  | fillReadGrant (lane : LaneId) (ready : Bool)
  /-- RECORD_PROGRAM_GRANT: always on lane A (06 R99). -/
  | recordProgramGrant (ready : Bool)
  | commitGrant (lane : LaneId) (ready : Bool)
  | relocationReadGrant (lane : LaneId) (ready : Bool)
  | markGrant (lane : LaneId) (ready : Bool)
  | patrolReadGrant (lane : LaneId) (ready : Bool)
  /-- The completions of page reads carry the 88 bytes the device returned (06 R97). -/
  | hostReadDone (lane : LaneId) (bytes : List Byte)
  | fillReadDone (lane : LaneId) (bytes : List Byte)
  | relocationReadDone (lane : LaneId) (bytes : List Byte)
  | patrolReadDone (lane : LaneId) (bytes : List Byte)
  | commitProgramDone (lane : LaneId)
  | commitVerifyDone (lane : LaneId) (bytes : List Byte)
  | recordProgramDone
  | recordReadBackDone (bytes : List Byte)
  | markProgramDone (lane : LaneId)
  | mountWaitReady (lane : LaneId)
  | systemPageReadDone (bytes : List Byte)
  | scanReadDone (lane : LaneId) (bytes : List Byte)
  | getStatus (ps : List Byte)
  | getConfig (ps : List Byte)
  | getPools (ps : List Byte)
  | getCounters (ps : List Byte)
  | inspectLogical (ps : List Byte)
  | inspectPhysical (ps : List Byte)
  | popNotice (ps : List Byte)
  | popNoticeSent
  | clearFaults (ps : List Byte)
  | setHoldTime (value : List Byte)
  | setPatrolInterval (value : List Byte)
  | setMigrationThreshold (value : List Byte)
  | setWearLimit (value : List Byte)
  | setSoftLimit (value : List Byte)
  | setReserveFloor (value : List Byte)
  | setProgramTimeLimit (value : List Byte)
  | setAttentionMask (value : List Byte)
  | setWindow (ps : List Byte)
  | resume (ps : List Byte)
  | saveConfig (ps : List Byte)
  | sealWindow (ps : List Byte)
  | flush (ps : List Byte)
  | quiesce (ps : List Byte)
  | setCapacity (ps : List Byte)
  | format (ps : List Byte)
  | remount (ps : List Byte)
  /-- BAD_FRAME: the whole frame as shifted in: code, length, parameters, CRC-8 (11 R160). -/
  | badFrame (frame : List Byte)
  /-- UNKNOWN_COMMAND: the code and the parameter bytes of a whole frame with a good CRC that names no command,
  or a SET_PARAM frame that names no parameter (11 R161; log 16). -/
  | unknownCommand (code : Byte) (ps : List Byte)
  | selectEnd
  | powerLoss
  | selectStart
deriving DecidableEq, Repr

end Sys2Proof
end

