-- ==== Sys2Proof/WellFormed.lean ====
section
/-! DEFINITION. Which operands an interface of the part can carry. A command with other operands stands for no
event: the meanings answer it with a fault or a refusal of its own name (log 19). -/

namespace Sys2Proof

/-- A host request has 1 to 64 bytes (03 R48). -/
abbrev lengthOk (n : Nat) : Prop := 1 ≤ n ∧ n ≤ Config.dataBytes

/-- A completed PAGE READ brings 88 bytes (06 R97). -/
abbrev pageOk (bytes : List Byte) : Prop := bytes.length = Config.pageBytes

/-- The length byte of a frame counts at most 255 parameter bytes (11 R160). -/
abbrev paramsOk (ps : List Byte) : Prop := ps.length ≤ 255

/-- A SET_PARAM frame carries one byte, the parameter number, before the value (12 Table 12.4). -/
abbrev valueOk (v : List Byte) : Prop := v.length ≤ 254

/-- The frame shifted in is whole: code, length byte, as many parameters as it says, one CRC byte (11 R160). -/
def frameWhole : List Byte → Bool
  | _ :: len :: rest => rest.length == len.toNat + 1
  | _ => false

/-- The operands of the command are ones an interface of the part can carry. -/
def Instr.wellFormed : Instr → Bool
  | .hostWrite _ data => decide (lengthOk data.length)
  | .hostRead _ len => decide (lengthOk len)
  | .holdTimerExpiry k => decide (k < Config.slotCount)
  | .hostReadDone _ bytes | .fillReadDone _ bytes | .relocationReadDone _ bytes | .patrolReadDone _ bytes
  | .commitVerifyDone _ bytes | .recordReadBackDone bytes | .systemPageReadDone bytes | .scanReadDone _ bytes =>
    decide (pageOk bytes)
  | .getStatus ps | .getConfig ps | .getPools ps | .getCounters ps | .inspectLogical ps | .inspectPhysical ps
  | .popNotice ps | .clearFaults ps | .setWindow ps | .resume ps | .saveConfig ps | .sealWindow ps | .flush ps
  | .quiesce ps | .setCapacity ps | .format ps | .remount ps | .unknownCommand _ ps => decide (paramsOk ps)
  | .setHoldTime v | .setPatrolInterval v | .setMigrationThreshold v | .setWearLimit v | .setSoftLimit v
  | .setReserveFloor v | .setProgramTimeLimit v | .setAttentionMask v => decide (valueOk v)
  | .badFrame frame => frameWhole frame
  | .powerOn _ _ _ | .resetAssertion _ | .resetDeassertion | .pwarnAssertion | .pwarnDeassertion
  | .wprotAssertion | .wprotDeassertion | .patrolTimerExpiry | .readTimeout _ | .programTimeout _
  | .readyTimeout _ | .readySeen _ | .hostReadGrant _ _ | .fillReadGrant _ _ | .recordProgramGrant _
  | .commitGrant _ _ | .relocationReadGrant _ _ | .markGrant _ _ | .patrolReadGrant _ _ | .commitProgramDone _
  | .recordProgramDone | .markProgramDone _ | .mountWaitReady _ | .popNoticeSent | .selectEnd | .powerLoss
  | .selectStart => true

/-- A command whose operands an interface of the part can carry. -/
abbrev Instr.WellFormed (i : Instr) : Prop := i.wellFormed = true

end Sys2Proof
end

