-- ==== Sys2Proof/Decode.lean ====
section
/-! DEFINITION. Reading commands from outside. The table of commands gives no row any bits, so no word of the table
spells a command (`decodeTableWord`; log 28). What does spell a command is a command frame of the maintenance port
(11 R160, R161, 12 Table 12.4): `decodeFrame` reads one, and `encodeFrame` writes the frame of a command. -/

namespace Sys2Proof

/-- The command a table word spells: the table gives no bits, so none (log 28). -/
def decodeTableWord (_nbits _w : Nat) : Option Instr := none

/-- A SET_PARAM frame by its parameter number (12 Table 12.4, 11 Table 11.2); a number that names no parameter, or
no number at all, is kept whole (log 16). -/
def setParamCommand (code : Byte) (ps : List Byte) : Instr :=
  match ps with
  | [] => .unknownCommand code ps
  | n :: v =>
    match n.toNat with
    | 1 => .setHoldTime v
    | 2 => .setPatrolInterval v
    | 3 => .setMigrationThreshold v
    | 4 => .setWearLimit v
    | 5 => .setSoftLimit v
    | 6 => .setReserveFloor v
    | 7 => .setProgramTimeLimit v
    | 8 => .setAttentionMask v
    | _ => .unknownCommand code ps

/-- The command of a code, Table 12.4. -/
def frameCommand (code : Byte) (ps : List Byte) : Instr :=
  match code.toNat with
  | 0x01 => .getStatus ps
  | 0x02 => .getConfig ps
  | 0x03 => .getPools ps
  | 0x04 => .getCounters ps
  | 0x05 => .inspectLogical ps
  | 0x06 => .inspectPhysical ps
  | 0x07 => .popNotice ps
  | 0x08 => .clearFaults ps
  | 0x09 => setParamCommand code ps
  | 0x0A => .setWindow ps
  | 0x0B => .resume ps
  | 0x20 => .saveConfig ps
  | 0x21 => .sealWindow ps
  | 0x22 => .flush ps
  | 0x23 => .quiesce ps
  | 0x24 => .setCapacity ps
  | 0x25 => .format ps
  | 0x26 => .remount ps
  | _ => .unknownCommand code ps

/-- Check 1 of R161: the length byte is above 16, or the CRC-8 over all bytes before the last does not match. -/
def frameBad (frame : List Byte) : Bool :=
  decide (Config.maxParams < (frame.getD 1 0#8).toNat) || Machine.crc8 frame.dropLast != frame.getLastD 0#8

/-- The command a whole frame spells; a frame that is not whole is discarded and spells none (11 R160, R161). -/
def decodeFrame (frame : List Byte) : Option Instr :=
  if frameWhole frame then
    if frameBad frame then some (.badFrame frame)
    else some (frameCommand (frame.getD 0 0#8) (frame.drop 2).dropLast)
  else none

/-- A frame: code, length, parameters, CRC-8 (11 R160). -/
def makeFrame (code : Byte) (ps : List Byte) : List Byte :=
  (code :: BitVec.ofNat 8 ps.length :: ps) ++ [Machine.crc8 (code :: BitVec.ofNat 8 ps.length :: ps)]

/-- The frame of a maintenance command; none for a command that is no frame. -/
def encodeFrame : Instr → Option (List Byte)
  | .getStatus ps => some (makeFrame 0x01#8 ps)
  | .getConfig ps => some (makeFrame 0x02#8 ps)
  | .getPools ps => some (makeFrame 0x03#8 ps)
  | .getCounters ps => some (makeFrame 0x04#8 ps)
  | .inspectLogical ps => some (makeFrame 0x05#8 ps)
  | .inspectPhysical ps => some (makeFrame 0x06#8 ps)
  | .popNotice ps => some (makeFrame 0x07#8 ps)
  | .clearFaults ps => some (makeFrame 0x08#8 ps)
  | .setHoldTime v => some (makeFrame 0x09#8 (1#8 :: v))
  | .setPatrolInterval v => some (makeFrame 0x09#8 (2#8 :: v))
  | .setMigrationThreshold v => some (makeFrame 0x09#8 (3#8 :: v))
  | .setWearLimit v => some (makeFrame 0x09#8 (4#8 :: v))
  | .setSoftLimit v => some (makeFrame 0x09#8 (5#8 :: v))
  | .setReserveFloor v => some (makeFrame 0x09#8 (6#8 :: v))
  | .setProgramTimeLimit v => some (makeFrame 0x09#8 (7#8 :: v))
  | .setAttentionMask v => some (makeFrame 0x09#8 (8#8 :: v))
  | .setWindow ps => some (makeFrame 0x0A#8 ps)
  | .resume ps => some (makeFrame 0x0B#8 ps)
  | .saveConfig ps => some (makeFrame 0x20#8 ps)
  | .sealWindow ps => some (makeFrame 0x21#8 ps)
  | .flush ps => some (makeFrame 0x22#8 ps)
  | .quiesce ps => some (makeFrame 0x23#8 ps)
  | .setCapacity ps => some (makeFrame 0x24#8 ps)
  | .format ps => some (makeFrame 0x25#8 ps)
  | .remount ps => some (makeFrame 0x26#8 ps)
  | .badFrame frame => some frame
  | .unknownCommand code ps => some (makeFrame code ps)
  | .powerOn _ _ _ | .resetAssertion _ | .resetDeassertion | .pwarnAssertion | .pwarnDeassertion
  | .wprotAssertion | .wprotDeassertion | .hostWrite _ _ | .hostRead _ _ | .holdTimerExpiry _
  | .patrolTimerExpiry | .readTimeout _ | .programTimeout _ | .readyTimeout _ | .readySeen _
  | .hostReadGrant _ _ | .fillReadGrant _ _ | .recordProgramGrant _ | .commitGrant _ _
  | .relocationReadGrant _ _ | .markGrant _ _ | .patrolReadGrant _ _ | .hostReadDone _ _ | .fillReadDone _ _
  | .relocationReadDone _ _ | .patrolReadDone _ _ | .commitProgramDone _ | .commitVerifyDone _ _
  | .recordProgramDone | .recordReadBackDone _ | .markProgramDone _ | .mountWaitReady _
  | .systemPageReadDone _ | .scanReadDone _ _ | .popNoticeSent | .selectEnd | .powerLoss | .selectStart => none

/-- The command is one a frame carries: a known command with at most 16 parameter bytes, a frame that fails check 1,
or a frame with at most 16 parameter bytes that names no command (11 R160, R161). -/
def Instr.carried (i : Instr) : Bool :=
  match i with
  | .badFrame frame => frameWhole frame && frameBad frame
  | .unknownCommand code ps =>
    decide (ps.length ≤ Config.maxParams) && frameCommand code ps == .unknownCommand code ps
  | _ =>
    match encodeFrame i with
    | some frame => decide (frame.length ≤ Config.maxParams + 3)
    | none => false

end Sys2Proof
end

