-- ==== Sys2Proof/Machine/Geometry.lean ====
section
/-! DEFINITION. The geometry the straps give (01 R3) and the capacities that follow from it (01 R2, Table 1.1). -/

namespace Sys2Proof.Machine

/-- Pages in each array device (01 R3). -/
inductive PageSize where
  | s1024
  | s2048
  | s4096
deriving DecidableEq, Repr

/-- The geometry in force (01 R3). -/
structure Geometry where
  twoLanes : Bool
  size : PageSize
deriving DecidableEq, Repr

/-- The SIZE straps as they are read: the fourth combination is 1024 pages per lane (01 R3). -/
def readSize : SizeStrap → PageSize
  | .s1024 => .s1024
  | .s2048 => .s2048
  | .s4096 => .s4096
  | .fourth => .s1024

/-- The geometry read from the strap inputs (01 R3). -/
def geometryOf (st : Straps) : Geometry := { twoLanes := st.twoLanes, size := readSize st.size }

/-- Pages per lane. -/
def Geometry.pagesPerLane (g : Geometry) : Nat :=
  match g.size with
  | .s1024 => 1024
  | .s2048 => 2048
  | .s4096 => 4096

/-- The number of lanes. -/
def Geometry.laneCount (g : Geometry) : Nat := if g.twoLanes then 2 else 1

/-- The lane is present: lane A always, lane B when the strap selects two lanes. -/
def Geometry.has (g : Geometry) : LaneId → Bool
  | .a => true
  | .b => g.twoLanes

/-- Physical pages of all present lanes. -/
def Geometry.physicalPages (g : Geometry) : Nat := g.laneCount * g.pagesPerLane

/-- The greatest legal capacity: sixteen data pages stay beyond it (Table 1.1). -/
def Geometry.maxCapacity (g : Geometry) : Nat := g.physicalPages - 2 - 16

/-- The default capacity: fifteen sixteenths of the physical total (Table 1.1). -/
def Geometry.defaultCapacity (g : Geometry) : Nat := g.physicalPages * 15 / 16

/-- The geometry code of a system record (12 Table 12.3). -/
def Geometry.code (g : Geometry) : Nat :=
  16 * g.laneCount + (match g.size with | .s1024 => 1 | .s2048 => 2 | .s4096 => 3)

end Sys2Proof.Machine
end

