-- ==== Sys2Proof/Machine/State.lean ====
section
/-! DEFINITION. The state of the bridge as plain data: everything the spec gives it (INVENTORY.md, State), the
queue of commands that wait, the reasons a step can stop, and the state right after reset. -/

namespace Sys2Proof.Machine

/-! ### Names -/

/-- Part mode (10 R153). -/
inductive Mode where
  | mounting
  | run
  | draining
  | drained
deriving DecidableEq, Repr

/-- The drain cause set (10 R154). -/
structure Causes where
  maintenance : Bool
  power : Bool
deriving DecidableEq, Repr

/-- Space state (01 R18). -/
inductive SpaceState where
  | ample
  | low
  | exhausted
deriving DecidableEq, Repr

/-- Protection of a window (04 Table 4.1). `opened` is the manual's OPEN, `locked` its LOCKED. -/
inductive Protection where
  | opened
  | pin
  | locked
  | sealed
deriving DecidableEq, Repr

/-- Commit mode of a window (04 Table 4.1). -/
inductive CommitMode where
  | posted
  | sync
deriving DecidableEq, Repr

/-- A protection window (04 R65). -/
structure Window where
  first : Nat
  last : Nat
  protection : Protection
  commitMode : CommitMode
deriving DecidableEq, Repr

/-- The default window (04 R65). -/
def defaultWindow : Window := { first := 0, last := 0, protection := .opened, commitMode := .posted }

/-- The working configuration (01 R2, 04 R65, 11 Table 11.2). -/
structure WorkCfg where
  capacity : Nat
  holdTime : Nat
  patrolInterval : Nat
  migThreshold : Nat
  wearLimit : Nat
  softLimit : Nat
  reserveFloor : Nat
  progLimit : Nat
  attnMask : BitVec 9
  windows : List Window
deriving DecidableEq, Repr

/-- The defaults for a geometry (11 Table 11.2, 12 R176). -/
def defaultCfg (g : Geometry) : WorkCfg :=
  { capacity := g.defaultCapacity
    holdTime := Config.defaultHoldTime
    patrolInterval := Config.defaultPatrolInterval
    migThreshold := Config.defaultMigThreshold
    wearLimit := Config.defaultWearLimit
    softLimit := Config.defaultSoftLimit
    reserveFloor := Config.defaultReserveFloor
    progLimit := Config.defaultProgLimit
    attnMask := 0x1FF#9
    windows := List.replicate 4 defaultWindow }

/-! ### The map -/

/-- A remap entry (01 Table 1.2). -/
inductive RemapEntry where
  | unmapped
  | mapped (page : PPage) (seq : Nat)
  | absent
deriving DecidableEq, Repr

/-- The state of a physical page, with its owner where it has one (01 Table 1.3). -/
inductive PageState where
  | system
  | free
  | mapped (owner : Nat)
  | target (owner : Nat)
  | retired
deriving DecidableEq, Repr

/-- A page table record (01 Table 1.3). -/
structure PageRec where
  state : PageState
  wear : Nat
  soft : Nat
deriving DecidableEq, Repr

/-- A data page as the start of a mount leaves it (01 R20). -/
def freshPage : PageRec := { state := .free, wear := 0, soft := 0 }

/-- A system page as the start of a mount leaves it (01 R20). -/
def freshSystemPage : PageRec := { state := .system, wear := 0, soft := 0 }

/-! ### Slots -/

/-- Why a slot exists; a MIGRATE slot carries its target lane (02 Table 2.1). -/
inductive Origin where
  | host
  | relocate
  | migrate (target : LaneId)
deriving DecidableEq, Repr

/-- The state of a slot that is not FREE, with the fields present in that state only (02 Table 2.1): `opened` is
the manual's OPEN with its hold deadline, given as the hold time in force at the opening (log 3). -/
inductive SlotPhase where
  | opened (deadline : Nat)
  | filling
  | sealed
  | programming (target : PPage) (seq : Nat)
  | verifying (target : PPage) (seq : Nat)
deriving DecidableEq, Repr

/-- A slot that is not FREE (02 Table 2.1). Image and valid mask are one list: offset i holds `some b` when its
valid flag is set and its byte is b, and `none` when the flag is clear (the image byte is then 0xFF: log 21). -/
structure Slot where
  phase : SlotPhase
  stamp : Nat
  page : Nat
  origin : Origin
  cells : List (Option Byte)
  poison : BitVec 8
  attempts : Nat
  flushMark : Bool
  owed : Bool
deriving DecidableEq, Repr

/-! ### Lanes -/

/-- A claim waiting on a lane (06 Table 6.1). A HOST_READ names the page of the read it serves, a FILL_READ its
slot; a COMMIT carries no slot number (05 R78). -/
inductive Claim where
  | hostRead (second : Bool)
  | fillRead (slot : Nat)
  | recordProgram
  | commit
  | relocationRead
  | mark
  | patrolRead
deriving DecidableEq, Repr

/-- The claimant of a decoded read (07 Table 7.2). -/
inductive Reader where
  | host (second : Bool)
  | fill (slot : Nat)
  | relocation
  | patrol
deriving DecidableEq, Repr

/-- Phase of a commit or of a record program: programming, or reading back (05 Table 5.1). -/
inductive ProgPhase where
  | programming
  | verifying
deriving DecidableEq, Repr

/-- The operation that holds a lane (06 R100). The commit's record of 05 Table 5.1 is the lane's `commit`
operation (log 20). `data` is the 88 bytes programmed, empty while the lane still waits for ready. -/
inductive Op where
  /-- A PAGE READ of a mapped copy: the logical page and sequence its entry held at the grant (07 R117). -/
  | read (reader : Reader) (logical index seq : Nat)
  | commit (slot : Nat) (phase : ProgPhase) (index seq : Nat) (data : List Byte)
  /-- A record program: the system page, and the configuration and format base as they stood at the grant. -/
  | record (index : Nat) (phase : ProgPhase) (cfg : WorkCfg) (base seq : Nat) (data : List Byte)
  | mark (index : Nat) (data : List Byte)
deriving DecidableEq, Repr

/-- A lane controller with its array device's pages, free list and claims (01 R7, R10, 06 R99 to R107). -/
structure Lane where
  online : Bool
  ready : Bool
  pages : List PageRec
  freeList : List Nat
  markList : List Nat
  claims : List Claim
  passOver : Nat
  op : Option Op
  awaitReady : Bool
  discard : Bool
  programs : BitVec 32
deriving DecidableEq, Repr

/-! ### Host port -/

/-- The causes of a FAULT answer (03 Table 3.2); `writeProtected` is the manual's PROTECTED. -/
inductive FaultCause where
  | range
  | writeProtected
  | noSpace
  | commitFailed
  | laneOffline
  | uncorrectable
deriving DecidableEq, Repr

/-- The answers of the host port (03 Table 3.1). -/
inductive HostAnswer where
  | data (bytes : List Byte)
  | done
  | retry
  | fault (cause : FaultCause)
deriving DecidableEq, Repr

/-- A host request on the link (03 R48). -/
inductive HostRequest where
  | write (addr : Nat) (data : List Byte)
  | read (addr len : Nat)
deriving DecidableEq, Repr

/-- A byte with the poison of its codeword (02 R46). -/
structure ReadByte where
  byte : Byte
  poisoned : Bool
deriving DecidableEq, Repr

/-- How far one page of a read is (03 R59 to R62). -/
inductive ReadProgress where
  /-- Its HOST_READ claim waits on the lane. -/
  | waiting (lane : LaneId)
  /-- Its lane read is granted; the bytes that come from slots were taken at the grant. -/
  | granted (lane : LaneId) (fromSlots : List (Option ReadByte))
  /-- Taken whole, with the physical page of a relocation request it will make (07 R120). -/
  | taken (bytes : List ReadByte) (request : Option PPage)
  /-- Its claim ended without data (03 R62). -/
  | failed (cause : FaultCause)
  /-- Its waiting claim was withdrawn because the answer was already a fault (03 R62). -/
  | withdrawn
deriving DecidableEq, Repr

/-- One page a read touches: the requested bytes are `len` from `off` on. -/
structure ReadPage where
  page : Nat
  off : Nat
  len : Nat
  progress : ReadProgress
deriving DecidableEq, Repr

/-- The state of the host port (03 Table 3.3). -/
inductive Port where
  | idle
  | reading (pages : List ReadPage)
  /-- The held-answer record: slots that still owe, and the failure flag (03 R56). -/
  | holding (slots : List Nat) (failed : Bool)
deriving DecidableEq, Repr

/-! ### Mount -/

/-- The phases of a mount (09 R139). CHOOSE and REBUILD pass within the step that ends SCAN (log 30). -/
inductive MountPhase where
  | wait
  | record
  | scan
  | choose
  | rebuild
deriving DecidableEq, Repr

/-- The class of a page read in the scan (09 R144). BLANK pages need no record. -/
inductive PageClass where
  /-- A SUSPECT page, with whether its CRC failed: it then takes the lane's highest wear (09 R145). -/
  | suspect (badCrc : Bool)
  | retired
  | stale
  | candidate (logical seq : Nat) (intact : Bool)
deriving DecidableEq, Repr

/-- A page with its class. -/
structure Classed where
  page : PPage
  cls : PageClass
deriving DecidableEq, Repr

/-- What the mount holds for one lane (09 R139, R140). -/
structure LaneScan where
  /-- Its wait for ready has not ended. -/
  waiting : Bool
  /-- The page being read in SCAN. -/
  reading : Option Nat
  /-- The highest wear read so far. -/
  wearHigh : Nat
deriving DecidableEq, Repr

/-- A valid system record (09 R141). -/
structure FoundRecord where
  seq : Nat
  cfg : WorkCfg
  base : Nat
deriving DecidableEq, Repr

/-- The mount unit (09 R139). -/
structure Mount where
  phase : MountPhase
  scanA : LaneScan
  scanB : LaneScan
  /-- The system page being read in RECORD: 0 or 1. -/
  sysPage : Nat
  /-- The valid record found on A:0000. -/
  found0 : Option FoundRecord
  /-- The valid record found on A:0001. -/
  found1 : Option FoundRecord
  classed : List Classed
  /-- The highest sequence of any tag with a matching CRC (09 R150). -/
  seqHigh : Option Nat
  suspectSeen : Bool
  tornSeen : Bool
deriving DecidableEq, Repr

/-! ### Maintenance port -/

/-- The kinds of notice (12 Table 12.7). -/
inductive NoticeKind where
  | commitLost
  | verifyFailed
  | pageRetired
  | uncorrectable
  | relocated
  | migrated
  | laneOffline
  | tornCopy
  | suspectPage
  | spaceChanged
  | commandDone
  | mountDone
deriving DecidableEq, Repr

/-- A notice (11 section D, 12 Table 12.7). -/
structure Notice where
  kind : NoticeKind
  lane : Option LaneId
  index : Option Nat
  logical : Option Nat
  detail : Nat
deriving DecidableEq, Repr

/-- The fault summary (11 R171, 12 Table 12.6). -/
structure FaultFlags where
  laneA : Bool
  laneB : Bool
  spaceLow : Bool
  spaceExhausted : Bool
  commitLost : Bool
  uncorrectable : Bool
  overflow : Bool
  mountTorn : Bool
deriving DecidableEq, Repr

/-- No flag set. -/
def noFaults : FaultFlags :=
  { laneA := false, laneB := false, spaceLow := false, spaceExhausted := false, commitLost := false,
    uncorrectable := false, overflow := false, mountTorn := false }

/-- The statistics counters but for the lanes' program counters (11 Table 11.4). -/
structure Stats where
  hostWrites : BitVec 32
  merged : BitVec 32
  retries : BitVec 32
  verifyFailures : BitVec 32
  corrected : BitVec 32
  uncorrectable : BitVec 32
deriving DecidableEq, Repr

/-- All counters 0. -/
def noStats : Stats :=
  { hostWrites := 0, merged := 0, retries := 0, verifyFailures := 0, corrected := 0, uncorrectable := 0 }

/-- A long command in the long-command slot (11 R163); a FLUSH carries whether a marked slot was lost (02 R36). -/
inductive LongCmd where
  | saveConfig
  | sealWindow (window : Nat)
  | flush (lost : Bool)
  | quiesce
  | setCapacity (capacity : Nat)
  | format
  | remount
deriving DecidableEq, Repr

/-- The serial port within a select period (11 R160, R162, R170). -/
inductive Serial where
  /-- SEL is high. -/
  | idle
  /-- SEL is low and the command frame has not been judged. -/
  | receiving
  /-- The answer frame, all its bytes; `popping` when it carries the head notice of the queue. -/
  | answering (frame : List Byte) (popping : Bool)
  /-- SEL is low and the exchange is over: the port drives 0x00 and ignores what is shifted in. -/
  | spent
deriving DecidableEq, Repr

/-- The input lines and straps. -/
structure Pins where
  straps : Straps
  resetAsserted : Bool
  pwarn : Bool
  wprot : Bool
deriving DecidableEq, Repr

/-! ### The state -/

/-- The state of the bridge. -/
structure State where
  powered : Bool
  pins : Pins
  geometry : Geometry
  mode : Mode
  causes : Causes
  drainedLine : Bool
  attn : Bool
  mount : Option Mount
  cfg : WorkCfg
  formatBase : Nat
  newestRecord : Option Nat
  blank : Bool
  wprotSampled : Bool
  remap : List RemapEntry
  seq : Nat
  space : SpaceState
  laneA : Lane
  laneB : Lane
  slots : List (Option Slot)
  commitQueue : List Nat
  nextStamp : Nat
  port : Port
  link : List HostRequest
  answers : List HostAnswer
  relocList : List (Nat × PPage)
  cursor : Nat
  passCount : BitVec 32
  timer : Option Nat
  patrolRead : Option (Nat × PPage)
  serial : Serial
  longCmd : Option LongCmd
  notices : List Notice
  dropped : Nat
  faults : FaultFlags
  stats : Stats
  pending : List Instr
deriving DecidableEq, Repr

/-- Why a step faults. No rule of the spec stops the part: a command that reports a transfer the lane cannot make
stops here. -/
inductive Fault where
  /-- A completed page read brings other than 88 bytes (06 R97). Raised by the completions of page reads. Safe. -/
  | transferLength
deriving DecidableEq, Repr

/-- Why a command is refused. -/
inductive Refusal where
  /-- The command has no meaning yet. Raised by exec's arms alone. Safe. -/
  | notModelled (mnemonic : String)
  /-- The operands are ones no interface of the part can carry (log 19): a host request of 0 or more than 64 bytes,
  a slot number above 15, a frame longer than its length byte can say. Raised by the meanings. Safe. -/
  | illFormed
deriving DecidableEq, Repr

/-! ### Reset -/

/-- The page table of a lane as the start of a mount leaves it: the two system pages stand on lane A (01 R4, R20). -/
def freshPages (g : Geometry) : LaneId → List PageRec
  | .a => freshSystemPage :: freshSystemPage :: List.replicate (g.pagesPerLane - 2) freshPage
  | .b => if g.twoLanes then List.replicate g.pagesPerLane freshPage else []

/-- A lane as power-on leaves it, its device seen ready or not (06 R111, R102). An absent lane B is never online. -/
def freshLane (g : Geometry) (l : LaneId) (ready : Bool) : Lane :=
  { online := g.has l
    ready := ready
    pages := freshPages g l
    freeList := []
    markList := []
    claims := []
    passOver := 0
    op := none
    awaitReady := false
    discard := false
    programs := 0 }

/-- The mount unit at the start of a mount: every present lane waits for its device (09 R139, R140). -/
def freshMount (g : Geometry) : Mount :=
  { phase := .wait
    scanA := { waiting := true, reading := none, wearHigh := 0 }
    scanB := { waiting := g.twoLanes, reading := none, wearHigh := 0 }
    sysPage := 0
    found0 := none
    found1 := none
    classed := []
    seqHigh := none
    suspectSeen := false
    tornSeen := false }

/-- The part as power-on or RESET leaves every block, before the mount begins (Table 9.1), for the levels of its
pins and of the two ready lines; the queue, the link and the answers given are kept by the caller. -/
def coldState (pins : Pins) (readyA readyB : Bool) : State :=
  let g := geometryOf pins.straps
  { powered := true
    pins := pins
    geometry := g
    mode := .mounting
    causes := { maintenance := false, power := pins.pwarn }
    drainedLine := false
    attn := false
    mount := none
    cfg := defaultCfg g
    formatBase := 0
    newestRecord := none
    blank := false
    wprotSampled := pins.wprot
    remap := List.replicate g.defaultCapacity .unmapped
    seq := 0
    space := .ample
    laneA := freshLane g .a readyA
    laneB := freshLane g .b readyB
    slots := List.replicate Config.slotCount none
    commitQueue := []
    nextStamp := 0
    port := .idle
    link := []
    answers := []
    relocList := []
    cursor := 0
    passCount := 0
    timer := none
    patrolRead := none
    serial := .idle
    longCmd := none
    notices := []
    dropped := 0
    faults := noFaults
    stats := noStats
    pending := [] }

/-- The levels of the pins at `State.reset` (log 5). -/
def resetPins : Pins :=
  { straps := { twoLanes := true, size := .s1024 }, resetAsserted := false, pwarn := false, wprot := false }

/-- The part right after reset: every block at its power-on value and the mount just begun (09 R138, Table 9.1). -/
def State.reset : State :=
  { coldState resetPins true true with mount := some (freshMount (geometryOf resetPins.straps)) }

end Sys2Proof.Machine
end

