-- ==== Sys2Proof/Machine/Flags.lean ====
section
/-! DEFINITION. What the part computes from its state without changing it: the ATTN condition (11 R173), the space
state (01 R18), the protection and commit mode of a page (04 R66, R67), the part mode (10 R153). -/

namespace Sys2Proof.Machine

/-- Power is applied and RESET is not asserted: the blocks act (10 R153, 11 R160). -/
def State.alive (s : State) : Bool := s.powered && !s.pins.resetAsserted

/-! ### Fault summary and ATTN (11 R171, R173) -/

/-- The flags in the bit order of 12 Table 12.6. -/
def FaultFlags.bits (f : FaultFlags) : List Bool :=
  [f.laneA, f.laneB, f.spaceLow, f.spaceExhausted, f.commitLost, f.uncorrectable, f.overflow, f.mountTorn]

/-- Some flag is set whose own enable in the mask is set: flag n has enable n + 1 (12 Table 12.6). -/
def flagEnabled (mask : BitVec 9) (bits : List Bool) : Bool :=
  (List.range 8).any (fun i => bits.getD i false && mask.getLsbD (i + 1))

/-- The condition under which ATTN is asserted (11 R173). -/
def State.attnOf (s : State) : Bool :=
  (!s.notices.isEmpty && s.cfg.attnMask.getLsbD 0) || flagEnabled s.cfg.attnMask s.faults.bits

/-! ### Sequence counter and space state (01 R16, R18) -/

/-- The counter is spent: it holds the all-ones value (01 R16). -/
def State.spent (s : State) : Bool := decide (Config.seqAllOnes ≤ s.seq)

/-- The free pages of a lane that count: those of an ONLINE lane (01 R18). -/
def Lane.freeCounted (x : Lane) : Nat := if x.online then x.freeList.length else 0

/-- The total FREE count: the free lists of the ONLINE lanes (01 R18). -/
def State.freeTotal (s : State) : Nat := s.laneA.freeCounted + s.laneB.freeCounted

/-- The space state the inputs give (01 R18). -/
def State.spaceNow (s : State) : SpaceState :=
  if s.spent then .exhausted
  else if s.freeTotal = 0 then .exhausted
  else if s.freeTotal ≤ s.cfg.reserveFloor then .low
  else .ample

/-! ### Windows (04 R65 to R67) -/

/-- The restrictiveness of a protection, the code of 12 R176: OPEN 0 to SEALED 3. -/
def Protection.rank : Protection → Nat
  | .opened => 0
  | .pin => 1
  | .locked => 2
  | .sealed => 3

/-- The protection of a code (12 R176). -/
def Protection.ofCode : Nat → Option Protection
  | 0 => some .opened
  | 1 => some .pin
  | 2 => some .locked
  | 3 => some .sealed
  | _ => none

/-- The commit mode of a code (12 R176). -/
def CommitMode.ofCode : Nat → Option CommitMode
  | 0 => some .posted
  | 1 => some .sync
  | _ => none

/-- The code of a commit mode (12 R176). -/
def CommitMode.code : CommitMode → Nat
  | .posted => 0
  | .sync => 1

/-- The window covers the page under the capacity in force (04 R65). -/
def Window.covers (w : Window) (capacity page : Nat) : Bool :=
  decide (w.first ≤ page) && decide (page ≤ w.last) && decide (page < capacity)

/-- The window is empty (04 R65). -/
def Window.isEmpty (w : Window) : Bool := decide (w.last < w.first)

/-- The more restrictive of two protections (04 R66). -/
def Protection.max (p q : Protection) : Protection := if p.rank < q.rank then q else p

/-- The windows that cover a page. -/
def State.covering (s : State) (page : Nat) : List Window :=
  s.cfg.windows.filter (fun w => w.covers s.cfg.capacity page)

/-- The effective protection of a page (04 R66). -/
def State.protection (s : State) (page : Nat) : Protection :=
  (s.covering page).foldr (fun w p => w.protection.max p) .opened

/-- The effective commit mode of a page (04 R66). -/
def State.commitMode (s : State) (page : Nat) : CommitMode :=
  if (s.covering page).any (fun w => w.commitMode == .sync) then .sync else .posted

/-- The page is write-protected now (04 R67). -/
def State.writeProtected (s : State) (page : Nat) : Bool :=
  match s.protection page with
  | .opened => false
  | .pin => s.wprotSampled
  | .locked => true
  | .sealed => true

/-- Some window is SEALED (04 R73). -/
def State.anySealed (s : State) : Bool := s.cfg.windows.any (fun w => w.protection == .sealed)

/-- Some SEALED window covers a page at or above the new capacity (04 R73). -/
def State.shrinkHitsSeal (s : State) (newCap : Nat) : Bool :=
  decide (newCap < s.cfg.capacity) &&
    s.cfg.windows.any (fun w => w.protection == .sealed && decide (w.first ≤ w.last) &&
      decide (newCap ≤ w.last) && decide (w.first < s.cfg.capacity))

/-! ### Slots counted and found (02 R24, R26) -/

/-- The cause set is not empty (10 R154). -/
def Causes.any (c : Causes) : Bool := c.maintenance || c.power

/-- The number of FREE slots (02 R26). -/
def State.freeCount (s : State) : Nat := s.slots.countP Option.isNone

/-- Every slot is FREE (02 R37). -/
def State.allFree (s : State) : Bool := s.slots.all Option.isNone

/-- The slots that are not FREE, with their numbers. -/
def State.usedSlots (s : State) : List (Nat × Slot) :=
  s.slots.zipIdx.filterMap (fun p => p.1.map (fun sl => (p.2, sl)))

/-- The slot of a number, when it is not FREE. -/
def State.slot (s : State) (k : Nat) : Option Slot := (s.slots[k]?).join

/-- The slots of a logical page (02 R24). -/
def State.slotsOf (s : State) (page : Nat) : List (Nat × Slot) := s.usedSlots.filter (fun p => p.2.page == page)

/-- The page has a slot in any state. -/
def State.hasSlot (s : State) (page : Nat) : Bool := s.slots.any (fun o => o.any (fun sl => sl.page == page))

/-- The slot with the greater stamp of two (02 R24). -/
def newerSlot (p q : Nat × Slot) : Nat × Slot := if p.2.stamp < q.2.stamp then q else p

/-- The newest slot of a page (02 R24). -/
def State.newestSlot (s : State) (page : Nat) : Option (Nat × Slot) :=
  match s.slotsOf page with
  | [] => none
  | p :: ps => some (ps.foldl newerSlot p)

/-- The lowest-numbered FREE slot (02 R26). -/
def State.firstFree (s : State) : Option Nat := s.slots.findIdx? Option.isNone

/-- The slot is in flight (02 R25). -/
def Slot.inFlight (sl : Slot) : Bool :=
  match sl.phase with
  | .programming _ _ => true
  | .verifying _ _ => true
  | _ => false

/-- The slot is OPEN. -/
def Slot.isOpen (sl : Slot) : Bool :=
  match sl.phase with
  | .opened _ => true
  | _ => false

/-- The slot holds a complete image: it is SEALED or in flight (02 R38). -/
def Slot.complete (sl : Slot) : Bool := sl.phase == .sealed || sl.inFlight

/-- Every valid flag is set. -/
def Slot.full (sl : Slot) : Bool := sl.cells.all Option.isSome

/-- The image bytes: an offset whose valid flag is clear holds 0xFF (02 R23). -/
def Slot.image (sl : Slot) : List Byte := sl.cells.map (fun c => c.getD erasedByte)

/-- The codewords fully covered by the valid mask. -/
def Slot.coveredMask (sl : Slot) : BitVec 8 :=
  cwMask (fun i => ((sl.cells.drop (8 * i)).take 8).all Option.isSome)

/-- The slot is the oldest of its page: no slot of the page has a smaller stamp (02 R24). -/
def State.isOldest (s : State) (sl : Slot) : Bool :=
  !s.slots.any (fun o => o.any (fun t => t.page == sl.page && decide (t.stamp < sl.stamp)))

/-- The remap entry of a logical page; a page beyond the table has none and reads as UNMAPPED here. -/
def State.entry (s : State) (page : Nat) : RemapEntry := s.remap.getD page .unmapped

/-- The map names the physical page for the logical page. -/
def State.mappedAt (s : State) (page : Nat) (p : PPage) : Bool :=
  match s.entry page with
  | .mapped q _ => q == p
  | _ => false

/-- A lane has a commit in progress (05 R76). -/
def Lane.committing (x : Lane) : Bool :=
  match x.op with
  | some (.commit _ _ _ _ _) => true
  | _ => false

/-- The part mode outside MOUNTING: it follows the cause set and the pool (10 R153). -/
def State.modeNow (s : State) : Mode :=
  if s.causes.any then (if s.allFree then .drained else .draining) else .run

end Sys2Proof.Machine
end

