-- ==== Sys2Proof/Machine/Ops.lean ====
section
/-! DEFINITION. The named operations over the state that the blocks share: lanes and page records, notices,
answers, the space state, the release of a copy, claims, and the events that follow a slot's departure. A block has
no exception entry (INVENTORY.md, Faults). -/

namespace Sys2Proof.Machine

/-! ### Lanes and page records -/

/-- The lane of a name. -/
def State.lane (s : State) : LaneId → Lane
  | .a => s.laneA
  | .b => s.laneB

/-- Replace one lane. -/
def State.setLane (s : State) (l : LaneId) (x : Lane) : State :=
  { s with
    laneA := (match l with | .a => x | .b => s.laneA)
    laneB := (match l with | .a => s.laneB | .b => x) }

/-- Change one lane. -/
def State.modLane (s : State) (l : LaneId) (f : Lane → Lane) : State := s.setLane l (f (s.lane l))

/-- The page table record of a physical page (01 R7). -/
def State.page (s : State) (p : PPage) : PageRec := (s.lane p.lane).pages.getD p.index freshPage

/-- Replace the record of a physical page. -/
def State.setPage (s : State) (p : PPage) (r : PageRec) : State :=
  s.modLane p.lane (fun x => { x with pages := x.pages.set p.index r })

/-- One more program of the page, saturating (01 R8). -/
def State.bumpWear (s : State) (p : PPage) : State :=
  s.setPage p { s.page p with wear := min ((s.page p).wear + 1) Config.wearMax }

/-- One more relocation caused by a correctable error on the page, saturating; a FREE page takes none (01 R9). -/
def State.bumpSoft (s : State) (p : PPage) : State :=
  if (s.page p).state = .free then s
  else s.setPage p { s.page p with soft := min ((s.page p).soft + 1) Config.softMax }

/-- Replace a slot; `none` is FREE. -/
def State.setSlot (s : State) (k : Nat) (o : Option Slot) : State := { s with slots := s.slots.set k o }

/-- Replace a remap entry. -/
def State.setEntry (s : State) (page : Nat) (e : RemapEntry) : State := { s with remap := s.remap.set page e }

/-- A lane is free: ONLINE, the mode is not MOUNTING, no granted operation holds it (06 R100). -/
def State.laneFree (s : State) (l : LaneId) : Bool :=
  s.alive && (s.lane l).online && s.mode != .mounting && (s.lane l).op.isNone

/-- Release the lane's operation. -/
def State.endOp (s : State) (l : LaneId) : State :=
  s.modLane l (fun x => { x with op := none, awaitReady := false, discard := false })

/-! ### Sequence counter (01 R16) -/

/-- The counter after a program took its value. -/
def State.takeSeq (s : State) : State := { s with seq := s.seq + 1 }

/-! ### Notices and fault flags (11 R168, R169, R171) -/

/-- Give a notice: it joins the tail, or the dropped count and NOTICE_OVERFLOW record it, by the queue's length as it is
given (11 R168; log 41 for a notice given as the head leaves a full queue). -/
def State.give (s : State) (n : Notice) : State :=
  { s with
    notices := if s.notices.length < Config.noticeCapacity then s.notices ++ [n] else s.notices
    dropped :=
      if s.notices.length < Config.noticeCapacity then s.dropped else min (s.dropped + 1) Config.droppedMax
    faults :=
      if s.notices.length < Config.noticeCapacity then s.faults else { s.faults with overflow := true } }

/-- Change the fault summary. -/
def State.flag (s : State) (f : FaultFlags → FaultFlags) : State := { s with faults := f s.faults }

/-- The flag of a lane (12 Table 12.6). -/
def FaultFlags.setLane (f : FaultFlags) : LaneId → FaultFlags
  | .a => { f with laneA := true }
  | .b => { f with laneB := true }

/-- The code of a space state (01 R19). -/
def SpaceState.code : SpaceState → Nat
  | .ample => 0
  | .low => 1
  | .exhausted => 2

/-- The flag a change of the space state sets (01 R19). -/
def FaultFlags.setSpace (f : FaultFlags) : SpaceState → FaultFlags
  | .ample => f
  | .low => { f with spaceLow := true }
  | .exhausted => { f with spaceExhausted := true }

/-- A SPACE_CHANGED notice (01 R19). -/
def spaceNotice (x : SpaceState) : Notice :=
  { kind := .spaceChanged, lane := none, index := none, logical := none, detail := x.code }

/-- Recompute the space state; a change gives one notice and sets the flag of the new state (01 R18, R19). -/
def State.recompute (s : State) : State :=
  if s.spaceNow = s.space then s
  else (({ s with space := s.spaceNow }).give (spaceNotice s.spaceNow)).flag (·.setSpace s.spaceNow)

/-! ### Free lists and release (01 R10, R12) -/

/-- Page i stands before page j in a free list: by wear, then by index (01 R10). -/
def freeBefore (pages : List PageRec) (i j : Nat) : Bool :=
  let wi := (pages.getD i freshPage).wear
  let wj := (pages.getD j freshPage).wear
  decide (wi < wj) || (wi == wj && decide (i < j))

/-- Insert a page at the place its wear and index give it (01 R10). -/
def insertFree (pages : List PageRec) (i : Nat) : List Nat → List Nat
  | [] => [i]
  | j :: js => if freeBefore pages i j then i :: j :: js else j :: insertFree pages i js

/-- The causes of a PAGE_RETIRED notice (01 R12, R15). -/
def causeWear : Nat := 1
def causeSoft : Nat := 2
def causeLimit : Nat := 3

/-- A PAGE_RETIRED notice. -/
def retiredNotice (p : PPage) (logical : Option Nat) (cause : Nat) : Notice :=
  { kind := .pageRetired, lane := some p.lane, index := some p.index, logical := logical, detail := cause }

/-- Append a page to the tail of its lane's mark list, unless it is there (06 R107). -/
def Lane.appendMark (x : Lane) (i : Nat) : Lane :=
  { x with markList := if x.markList.contains i then x.markList else x.markList ++ [i] }

/-- Withdraw a page: RETIRED, no owner, on the mark list (01 R12, R14, R15). -/
def State.retire (s : State) (p : PPage) : State :=
  (s.setPage p { s.page p with state := .retired }).modLane p.lane (·.appendMark p.index)

/-- The record's counts are at or above a limit (01 R12). -/
def State.atLimit (s : State) (r : PageRec) : Bool :=
  decide (s.cfg.wearLimit ≤ r.wear) || decide (s.cfg.softLimit ≤ r.soft)

/-- Release a copy: RETIRED with its notice when a limit is met, FREE in its lane's list otherwise; the space state
is recomputed by the caller (01 R12, R18). -/
def State.release (s : State) (p : PPage) (logical : Nat) : State :=
  if s.atLimit (s.page p) then
    (s.retire p).give
      (retiredNotice p (some logical) (if s.cfg.wearLimit ≤ (s.page p).wear then causeWear else causeSoft))
  else
    (s.setPage p { s.page p with state := .free }).modLane p.lane
      (fun x => { x with freeList := insertFree x.pages p.index x.freeList })

/-! ### Claims (06 R99, R101) -/

/-- Post a claim as the latest of its lane. -/
def State.post (s : State) (l : LaneId) (c : Claim) : State :=
  s.modLane l (fun x => { x with claims := x.claims ++ [c] })

/-- Withdraw a claim from a lane; it has no effect where the claim does not wait. -/
def State.withdraw (s : State) (l : LaneId) (c : Claim) : State :=
  s.modLane l (fun x => { x with claims := x.claims.filter (fun d => d != c) })

/-- Withdraw a claim from both lanes. -/
def State.withdrawBoth (s : State) (c : Claim) : State := (s.withdraw .a c).withdraw .b c

/-- Withdraw a lane's COMMIT claim; the pass-over count becomes 0 (06 R101). -/
def State.withdrawCommit (s : State) (l : LaneId) : State :=
  s.modLane l (fun x => { x with claims := x.claims.filter (fun d => d != .commit), passOver := 0 })

/-! ### Answers of the host port (03 R49) -/

/-- The port answers the request in progress and is IDLE; a RETRY is counted (03 R49, R50). -/
def State.answer (s : State) (a : HostAnswer) : State :=
  { s with
    answers := s.answers ++ [a]
    port := .idle
    stats := if a = .retry then { s.stats with retries := s.stats.retries + 1 } else s.stats }

/-! ### Long commands (11 R163) -/

/-- Results of a long command (11 R163). -/
def resultOk : Nat := 0
def resultLaneOffline : Nat := 1
def resultVerifyFailed : Nat := 2
def resultSomeLost : Nat := 3

/-- The code of a long command (12 Table 12.4). -/
def LongCmd.code : LongCmd → Nat
  | .saveConfig => 0x20
  | .sealWindow _ => 0x21
  | .flush _ => 0x22
  | .quiesce => 0x23
  | .setCapacity _ => 0x24
  | .format => 0x25
  | .remount => 0x26

/-- The logical page field of COMMAND_DONE: the capacity in force after a SET_CAPACITY (11 R163). -/
def State.doneLogical (s : State) : LongCmd → Option Nat
  | .setCapacity _ => some s.cfg.capacity
  | _ => none

/-- A COMMAND_DONE notice; the page is the system page the command programmed, when a record program was started
(11 R163). -/
def State.doneNotice (s : State) (c : LongCmd) (result : Nat) (sysPage : Option Nat) : Notice :=
  { kind := .commandDone
    lane := sysPage.map (fun _ => .a)
    index := sysPage
    logical := s.doneLogical c
    detail := 256 * c.code + result }

/-- The pending long command ends with its COMMAND_DONE notice and leaves its slot (11 R163). -/
def State.finishLong (s : State) (result : Nat) (sysPage : Option Nat) : State :=
  match s.longCmd with
  | none => s
  | some c => ({ s with longCmd := none }).give (s.doneNotice c result sysPage)

/-! ### What follows a slot's departure (02 R36, R37, R45, 03 R56, 10 R156, R158) -/

/-- How a slot leaves the pool (02 R45). -/
inductive Leave where
  | completed
  | lost
  | discarded
deriving DecidableEq, Repr

/-- The pool reports a slot that owed the held answer (03 R56). -/
def State.reportHeld (s : State) (k : Nat) (lost : Bool) : State :=
  match s.port with
  | .holding ks failed =>
    if ks.contains k then
      if (ks.erase k).isEmpty then
        s.answer (if failed || lost then .fault .commitFailed else .done)
      else { s with port := .holding (ks.erase k) (failed || lost) }
    else s
  | _ => s

/-- Some slot carries a flush mark (02 R36). -/
def State.anyFlushMark (s : State) : Bool := s.slots.any (fun o => o.any (fun sl => sl.flushMark))

/-- A flush-marked slot became FREE: the pending FLUSH is checked for completion (02 R36). -/
def State.flushCheck (s : State) (lost : Bool) : State :=
  match s.longCmd with
  | some (.flush before) =>
    let t : State := { s with longCmd := some (.flush (before || lost)) }
    if s.anyFlushMark then t
    else t.finishLong (if before || lost then resultSomeLost else resultOk) none
  | _ => s

/-- A pending QUIESCE completes when the mode is DRAINED with MAINTENANCE in the set (10 R158). -/
def State.quiesceCheck (s : State) : State :=
  if s.longCmd = some .quiesce ∧ s.mode = .drained ∧ s.causes.maintenance = true then s.finishLong resultOk none
  else s

/-- The pool reports itself empty: DRAINING becomes DRAINED (02 R37, 10 R156). -/
def State.poolReport (s : State) : State :=
  if s.allFree = true ∧ s.mode = .draining ∧ s.causes.any = true then
    ({ s with mode := .drained }).quiesceCheck
  else s

/-- A slot leaves the pool and becomes FREE, with what its departure enables (02 R45). -/
def State.freeSlot (s : State) (k : Nat) (how : Leave) : State :=
  match s.slot k with
  | none => s
  | some sl =>
    let s1 := s.setSlot k none
    let s2 := if sl.owed then s1.reportHeld k (how == .lost) else s1
    let s3 := if sl.flushMark then s2.flushCheck (how == .lost) else s2
    s3.poolReport

/-! ### Drops (05 R89, R92, R96) -/

/-- The origin code of a COMMIT_LOST notice (05 R96). -/
def Origin.code : Origin → Nat
  | .host => 0
  | .relocate => 1
  | .migrate _ => 2

/-- The cause codes of a COMMIT_LOST notice (05 R96). -/
def lostVerify : Nat := 1
def lostExhausted : Nat := 2

/-- A COMMIT_LOST notice (05 R94, R96). -/
def lostNotice (sl : Slot) (cause : Nat) (target : Option PPage) : Notice :=
  { kind := .commitLost
    lane := target.map (·.lane)
    index := target.map (·.index)
    logical := some sl.page
    detail := cause + 16 * sl.origin.code }

/-- Drop a slot: its notice and flag, then its departure (05 R89, R92; log 13). -/
def State.dropSlot (s : State) (k : Nat) (cause : Nat) (target : Option PPage) : State :=
  match s.slot k with
  | none => { s with commitQueue := s.commitQueue.erase k }
  | some sl =>
    (((({ s with commitQueue := s.commitQueue.erase k }).give (lostNotice sl cause target)).flag
      (fun f => { f with commitLost := true })).freeSlot k .lost)

/-- The exhaustion condition: the space state is EXHAUSTED and no commit is in progress (05 R92). -/
def State.exhaustion (s : State) : Bool :=
  s.space == .exhausted && !s.laneA.committing && !s.laneB.committing

/-- While the exhaustion condition holds the commit queue is dropped from its head (05 R92, R93). -/
def State.exhaust (s : State) : State :=
  if s.exhaustion then s.commitQueue.foldl (fun t k => t.dropSlot k lostExhausted none) s else s

end Sys2Proof.Machine
end

