-- ==== Sys2Proof/Machine/Pool.lean ====
section
/-! DEFINITION. The staging pool (chapter 2): merging host bytes, sealing, filling, the slots the patrol unit asks
for, and the commit queue's ends. -/

namespace Sys2Proof.Machine

/-! ### The commit queue (02 R44) -/

/-- A slot that became SEALED joins the tail; under the exhaustion condition it is dropped as it arrives
(02 R32, 05 R92). -/
def State.enqueueTail (s : State) (k : Nat) : State :=
  ({ s with commitQueue := s.commitQueue ++ [k] }).exhaust

/-- A slot the commit engine returns enters at the head (02 R44, R45). -/
def State.enqueueHead (s : State) (k : Nat) : State := { s with commitQueue := k :: s.commitQueue }

/-! ### Fill (02 R38 to R41) -/

/-- The source of a fill (02 R38). -/
inductive FillSource where
  | older (slot : Slot)
  | copy (page : PPage) (seq : Nat)
  | erased
  | none
deriving DecidableEq, Repr

/-- The older slot of the page that holds a complete image, if any (02 R38). -/
def State.olderComplete (s : State) (sl : Slot) : Option Slot :=
  (s.usedSlots.find? (fun p => p.2.page == sl.page && decide (p.2.stamp < sl.stamp) && p.2.complete)).map (·.2)

/-- The fill source of a slot, resolved by the first condition that holds (02 R38). -/
def State.fillSource (s : State) (sl : Slot) : FillSource :=
  match s.olderComplete sl with
  | some t => .older t
  | none =>
    match s.entry sl.page with
    | .mapped p q => if (s.lane p.lane).online then .copy p q else .none
    | .unmapped => .erased
    | .absent => .none

/-- 64 erased bytes. -/
def erasedImage : List Byte := List.replicate Config.dataBytes erasedByte

/-- The slot after its fill from source bytes and source poison: the bytes whose flags are clear are taken, and the
codewords not fully covered take the source's poison; it is then SEALED (02 R40, R41). -/
def Slot.filled (sl : Slot) (src : List Byte) (srcPoison : BitVec 8) : Slot :=
  { sl with
    cells := List.zipWith (fun c b => some (c.getD b)) sl.cells src
    poison := sl.poison ||| (srcPoison &&& ~~~ sl.coveredMask)
    phase := .sealed }

/-- A fill completes: the slot is SEALED at the tail of the queue (02 R41). -/
def State.completeFill (s : State) (k : Nat) (src : List Byte) (srcPoison : BitVec 8) : State :=
  match s.slot k with
  | none => s
  | some sl => (s.setSlot k (some (sl.filled src srcPoison))).enqueueTail k

/-- The fill of a slot that takes no source: what is not fully covered is poisoned (02 R38, R39). -/
def State.fillWithoutSource (s : State) (k : Nat) : State := s.completeFill k erasedImage 0xFF#8

/-- The slot is SEALED and joins the tail, with no judgement of the exhaustion condition: at the loss of a lane the
condition is judged once, after everything else (06 R106; log 37). -/
def State.joinFilled (s : State) (k : Nat) (src : List Byte) (srcPoison : BitVec 8) : State :=
  match s.slot k with
  | none => s
  | some sl =>
    { (s.setSlot k (some (sl.filled src srcPoison))) with commitQueue := s.commitQueue ++ [k] }

/-- The fill whose read is lost takes no source (06 R104, R105). Where the exhaustion condition held before the loss
the slot is dropped as it joins (05 R92); where it did not, the loss judges it at its end (06 R106; log 37). -/
def State.fillLost (s : State) (held : Bool) (k : Nat) : State :=
  if held then s.fillWithoutSource k else s.joinFilled k erasedImage 0xFF#8

/-- Resolve a FILLING slot's source and act on it: at once, or by a FILL_READ claim (02 R38). -/
def State.startFill (s : State) (k : Nat) : State :=
  match s.slot k with
  | none => s
  | some sl =>
    match s.fillSource sl with
    | .older t => s.completeFill k t.image t.poison
    | .copy p _ => s.post p.lane (.fillRead k)
    | .erased => s.completeFill k erasedImage 0#8
    | .none => s.fillWithoutSource k

/-! ### Sealing (02 R32) -/

/-- Seal a slot; it acts on an OPEN slot only (02 R32). -/
def State.seal (s : State) (k : Nat) : State :=
  match s.slot k with
  | none => s
  | some sl =>
    if sl.isOpen then
      if sl.full then (s.setSlot k (some { sl with phase := .sealed })).enqueueTail k
      else (s.setSlot k (some { sl with phase := .filling })).startFill k
    else s

/-- Insert a numbered slot in ascending order of creation stamp. -/
def insertByStamp (p : Nat × Slot) : List (Nat × Slot) → List (Nat × Slot)
  | [] => [p]
  | q :: qs => if p.2.stamp < q.2.stamp then p :: q :: qs else q :: insertByStamp p qs

/-- Numbered slots in ascending order of creation stamp. -/
def sortByStamp (l : List (Nat × Slot)) : List (Nat × Slot) := l.foldr insertByStamp []

/-- The numbers of the OPEN slots, oldest first (02 R32). -/
def State.openSlots (s : State) : List Nat := (sortByStamp (s.usedSlots.filter (fun p => p.2.isOpen))).map (·.1)

/-- Seal several slots one after another. -/
def State.sealEach (s : State) (ks : List Nat) : State := ks.foldl State.seal s

/-- Seal every OPEN slot in ascending order of creation stamp (02 R32, R36, R37). -/
def State.sealAll (s : State) : State := s.sealEach s.openSlots

/-- The pressure seal: the oldest OPEN slot, if any (02 R35). -/
def State.sealOldest (s : State) : State :=
  match s.openSlots with
  | [] => s
  | k :: _ => s.seal k

/-! ### Host bytes in slots (02 R27 to R31) -/

/-- The bytes of a write for one page: they start at an offset of the page. -/
structure Part where
  page : Nat
  off : Nat
  data : List Byte
deriving DecidableEq, Repr

/-- The parts of a write, the lower page first (01 R1, 02 R27). -/
def writeParts (addr : Nat) (data : List Byte) : List Part :=
  let off := addr % Config.dataBytes
  let first : Part := { page := addr / Config.dataBytes, off := off, data := data.take (Config.dataBytes - off) }
  if off + data.length ≤ Config.dataBytes then [first]
  else [first, { page := addr / Config.dataBytes + 1, off := 0, data := data.drop (Config.dataBytes - off) }]

/-- Place bytes from an offset on, setting their valid flags (02 R29). -/
def overlay : Nat → List Byte → List (Option Byte) → List (Option Byte)
  | _, _, [] => []
  | _, [], cs => cs
  | 0, b :: bs, _ :: cs => some b :: overlay 0 bs cs
  | n + 1, bs, c :: cs => c :: overlay n bs cs

/-- The codewords all eight bytes of which the write itself supplies (02 R29). -/
def Part.coveredMask (pt : Part) : BitVec 8 :=
  cwMask (fun i => decide (pt.off ≤ 8 * i) && decide (8 * i + 8 ≤ pt.off + pt.data.length))

/-- The slot after a merge: bytes, valid flags, poison, and the origin, which becomes HOST (02 R29). -/
def Slot.merged (sl : Slot) (pt : Part) : Slot :=
  { sl with
    cells := overlay pt.off pt.data sl.cells
    poison := sl.poison &&& ~~~ pt.coveredMask
    origin := .host }

/-- A slot as it is opened for a host write (02 R28). -/
def openedSlot (stamp page holdTime : Nat) : Slot :=
  { phase := .opened holdTime
    stamp := stamp
    page := page
    origin := .host
    cells := List.replicate Config.dataBytes none
    poison := 0
    attempts := 0
    flushMark := false
    owed := false }

/-- The page is written by merging into its newest slot: it has one, and that slot is not in flight (02 R27). -/
def State.mergeTarget (s : State) (page : Nat) : Option (Nat × Slot) :=
  (s.newestSlot page).filter (fun p => !p.2.inFlight)

/-- The new slots a write needs (02 R27, 03 R54). -/
def State.slotsNeeded (s : State) (parts : List Part) : Nat :=
  parts.countP (fun pt => (s.mergeTarget pt.page).isNone)

/-- A FILL_READ of the slot is granted on the lane. -/
def Lane.filling (x : Lane) (k : Nat) : Bool :=
  match x.op with
  | some (.read (.fill j) _ _ _) => j == k
  | _ => false

/-- A FILL_READ of the slot is granted on some lane (02 R41). -/
def State.fillGranted (s : State) (k : Nat) : Bool := s.laneA.filling k || s.laneB.filling k

/-- A late merge that fills the mask of a FILLING slot ends the fill, unless its read is under way (02 R41). -/
def State.lateMergeEnd (s : State) (k : Nat) : State :=
  match s.slot k with
  | none => s
  | some sl =>
    if sl.phase = .filling ∧ sl.full = true ∧ s.fillGranted k = false then
      (s.withdrawBoth (.fillRead k)).completeFill k erasedImage 0#8
    else s

/-- What the placing of one part did: the slot, whether it was opened, and the FREE count its allocation left. -/
structure Placed where
  slot : Nat
  opened : Bool
  freeLeft : Nat
deriving DecidableEq, Repr

/-- Place one part: merge into the newest slot, or open one (02 R27 to R30). A FILLING slot whose fill the merge ends joins
the queue here, before the full-mask seals of the write's other slot (02 R33, R41; log 39). -/
def State.placePart (s : State) (pt : Part) : State × List Placed :=
  match s.mergeTarget pt.page with
  | some (k, sl) =>
    ((s.setSlot k (some (sl.merged pt))).lateMergeEnd k, [{ slot := k, opened := false, freeLeft := s.freeCount }])
  | none =>
    match s.firstFree with
    | none => (s, [])
    | some k =>
      ({ (s.setSlot k (some ((openedSlot s.nextStamp pt.page s.cfg.holdTime).merged pt))) with
          nextStamp := s.nextStamp + 1 },
        [{ slot := k, opened := true, freeLeft := s.freeCount - 1 }])

/-- Place the parts of a write, the lower page first (02 R27). -/
def State.placeParts (s : State) : List Part → State × List Placed
  | [] => (s, [])
  | pt :: pts =>
    let r := s.placePart pt
    let q := r.1.placeParts pts
    (q.1, r.2 ++ q.2)

/-- The slots of a list of numbers, in ascending order of creation stamp (02 R32). -/
def State.byStamp (s : State) (ks : List Nat) : List Nat :=
  (sortByStamp (ks.filterMap (fun k => (s.slot k).map (fun sl => (k, sl))))).map (·.1)

/-- Change a slot that is not FREE. -/
def State.modSlot (s : State) (k : Nat) (f : Slot → Slot) : State :=
  match s.slot k with
  | none => s
  | some sl => s.setSlot k (some (f sl))

/-- The full-mask seal of the touched slots (02 R33). -/
def State.sealFull (s : State) (ks : List Nat) : State :=
  s.sealEach (ks.filter (fun k => (s.slot k).any Slot.full))

/-- The seals a write can cause, in the order of 02 R28: full mask, SYNC, a hold time of 0, pressure (log 11, 12). -/
def State.writeSeals (s : State) (placed : List Placed) (sync : Bool) : State :=
  let touched := s.byStamp (placed.map (·.slot))
  let s1 := s.sealFull touched
  let s2 := if sync then s1.sealEach touched else s1
  let s3 :=
    if s.cfg.holdTime = 0 then s2.sealEach (s.byStamp ((placed.filter (·.opened)).map (·.slot))) else s2
  (placed.filter (fun p => p.opened && decide (p.freeLeft < Config.pressureLevel))).foldl
    (fun t _ => t.sealOldest) s3

/-! ### Slots made by the patrol unit (02 R42, R43) -/

/-- The pool's conditions for a RELOCATE or MIGRATE slot (02 R43). -/
def State.mayCreate (s : State) (page : Nat) : Bool :=
  !s.hasSlot page && !s.causes.any && decide (Config.internalSlotFloor ≤ s.freeCount)

/-- A slot of the patrol unit, made whole and SEALED (02 R42). -/
def internalSlot (stamp page : Nat) (origin : Origin) (data : List Byte) (poison : BitVec 8) : Slot :=
  { phase := .sealed
    stamp := stamp
    page := page
    origin := origin
    cells := data.map some
    poison := poison
    attempts := 0
    flushMark := false
    owed := false }

/-- Create a RELOCATE or MIGRATE slot; `none` when the pool refuses (02 R42, R43). -/
def State.createSlot (s : State) (page : Nat) (origin : Origin) (data : List Byte) (poison : BitVec 8) :
    Option State :=
  if s.mayCreate page then
    match s.firstFree with
    | none => none
    | some k =>
      some
        (({ (s.setSlot k (some (internalSlot s.nextStamp page origin data poison))) with
            nextStamp := s.nextStamp + 1 }).enqueueTail k)
  else none

end Sys2Proof.Machine
end

