-- ==== Sys2Proof/Machine/Operands.lean ====
section
/-! DEFINITION. The operands a maintenance frame carries: numbers, parameter ranges (11 Table 11.2), window fields
(04 R71), lanes and pages (11 R167). -/

namespace Sys2Proof.Machine

/-! ### Ranges of the parameters (11 Table 11.2, 12 Table 12.3) -/

def holdTimeOk (v : Nat) : Bool := decide (v ≤ 60000)
def patrolIntervalOk (v : Nat) : Bool := decide (v ≤ 65535)
def migThresholdOk (v : Nat) : Bool := v == 0 || (decide (16 ≤ v) && decide (v ≤ 1000000))
def wearLimitOk (v : Nat) : Bool := decide (1000 ≤ v) && decide (v ≤ 16000000)
def softLimitOk (v : Nat) : Bool := decide (1 ≤ v) && decide (v ≤ 255)
def reserveFloorOk (v : Nat) : Bool := decide (2 ≤ v) && decide (v ≤ 64)
def progLimitOk (v : Nat) : Bool := decide (1 ≤ v) && decide (v ≤ 100)
def attnMaskOk (v : Nat) : Bool := decide (v < 512)

/-- The legal range of the capacity for a geometry (01 R2). -/
def capacityOk (g : Geometry) (v : Nat) : Bool := decide (Config.minCapacity ≤ v) && decide (v ≤ g.maxCapacity)

/-- The value of a SET_PARAM frame: four bytes in range (12 Table 12.4), `none` where the frame is INVALID. -/
def paramValue (ok : Nat → Bool) (v : List Byte) : Option Nat :=
  if v.length = 4 ∧ ok (beNat v) = true then some (beNat v) else none

/-! ### Windows (04 R71, 12 R176) -/

/-- Six bytes of a window: first page, last page, protection code, commit mode code (12 Table 12.3). -/
def readWindow (bs : List Byte) : Option Window :=
  match Protection.ofCode (beNat ((bs.drop 4).take 1)), CommitMode.ofCode (beNat ((bs.drop 5).take 1)) with
  | some p, some m =>
    some { first := beNat (bs.take 2), last := beNat ((bs.drop 2).take 2), protection := p, commitMode := m }
  | _, _ => none

/-- The six bytes of a window. -/
def windowBytes (w : Window) : List Byte :=
  beBytes 2 w.first ++ beBytes 2 w.last ++ beBytes 1 w.protection.rank ++ beBytes 1 w.commitMode.code

/-- The parameters of SET_WINDOW: window number and new fields; `none` where the frame is INVALID (04 R71). -/
def windowParams (capacity : Nat) (ps : List Byte) : Option (Nat × Window) :=
  if ps.length = 7 then
    match readWindow (ps.drop 1) with
    | none => none
    | some w =>
      let n := beNat (ps.take 1)
      if n ≤ 3 ∧ w.protection ≠ .sealed ∧ (w.isEmpty = true ∨ w.last < capacity) then some (n, w) else none
  else none

/-- The parameter of SEAL_WINDOW: a window that is not empty; `none` where the frame is INVALID (04 R72). -/
def sealParam (windows : List Window) (ps : List Byte) : Option Nat :=
  if ps.length = 1 then
    match windows[beNat ps]? with
    | some w => if w.isEmpty then none else some (beNat ps)
    | none => none
  else none

/-! ### Pages (11 R167) -/

/-- The parameter of INSPECT_LOGICAL: a page below L. -/
def logicalParam (capacity : Nat) (ps : List Byte) : Option Nat :=
  if ps.length = 2 ∧ beNat ps < capacity then some (beNat ps) else none

/-- The lane of a lane byte (12 Table 12.4). -/
def laneOfCode : Nat → Option LaneId
  | 0 => some .a
  | 1 => some .b
  | _ => none

/-- The parameters of INSPECT_PHYSICAL: a present lane and an index below the pages per lane. -/
def physicalParam (g : Geometry) (ps : List Byte) : Option PPage :=
  if ps.length = 3 then
    match laneOfCode (beNat (ps.take 1)) with
    | some l =>
      if g.has l = true ∧ beNat (ps.drop 1) < g.pagesPerLane then some { lane := l, index := beNat (ps.drop 1) }
      else none
    | none => none
  else none

/-- The parameter of SET_CAPACITY: a capacity legal for the geometry (11 R165). -/
def capacityParam (g : Geometry) (ps : List Byte) : Option Nat :=
  if ps.length = 2 ∧ capacityOk g (beNat ps) = true then some (beNat ps) else none

end Sys2Proof.Machine
end

