-- ==== Sys2Proof/Machine/Records.lean ====
section
/-! DEFINITION. The system record: how it is built (12 R176, 11 R164) and when a system page holds a valid one
(09 R141). -/

namespace Sys2Proof.Machine

/-- The version this part writes (12 Table 12.3). -/
def recordVersion : Byte := 0x01#8

/-- Bytes 0 to 61 of a record (12 Table 12.3). -/
def recordBody (g : Geometry) (c : WorkCfg) (base : Nat) : List Byte :=
  [recordVersion] ++ beBytes 1 g.code ++ beBytes 2 c.capacity ++ beBytes 3 c.wearLimit ++ beBytes 1 c.softLimit ++
    beBytes 3 c.migThreshold ++ beBytes 2 c.holdTime ++ beBytes 2 c.patrolInterval ++ beBytes 1 c.reserveFloor ++
    beBytes 1 c.progLimit ++ beBytes 2 c.attnMask.toNat ++ c.windows.flatMap windowBytes ++ beBytes 6 base ++
    List.replicate 13 0#8

/-- The 64 data bytes of a record. -/
def recordData (g : Geometry) (c : WorkCfg) (base : Nat) : List Byte :=
  recordBody g c base ++ beBytes 2 (crc16 (recordBody g c base)).toNat

/-- The number in n bytes from an offset. -/
def field (bs : List Byte) (off n : Nat) : Nat := beNat ((bs.drop off).take n)

/-- The four windows of a record. -/
def recordWindows (bs : List Byte) : Option (List Window) :=
  match readWindow ((bs.drop 19).take 6), readWindow ((bs.drop 25).take 6), readWindow ((bs.drop 31).take 6),
      readWindow ((bs.drop 37).take 6) with
  | some w0, some w1, some w2, some w3 => some [w0, w1, w2, w3]
  | _, _, _, _ => none

/-- The configuration 64 record bytes carry, when the record is valid for the geometry (09 R141, 12 R176). -/
def readRecord (g : Geometry) (bs : List Byte) : Option (WorkCfg × Nat) :=
  match recordWindows bs with
  | none => none
  | some ws =>
    if crc16 (bs.take 62) = BitVec.ofNat 16 (field bs 62 2) ∧ bs.getD 0 0#8 = recordVersion ∧
        field bs 1 1 = g.code ∧ capacityOk g (field bs 2 2) = true ∧ wearLimitOk (field bs 4 3) = true ∧
        softLimitOk (field bs 7 1) = true ∧ migThresholdOk (field bs 8 3) = true ∧
        holdTimeOk (field bs 11 2) = true ∧ reserveFloorOk (field bs 15 1) = true ∧
        progLimitOk (field bs 16 1) = true ∧ attnMaskOk (field bs 17 2) = true then
      some
        ({ capacity := field bs 2 2
           holdTime := field bs 11 2
           patrolInterval := field bs 13 2
           migThreshold := field bs 8 3
           wearLimit := field bs 4 3
           softLimit := field bs 7 1
           reserveFloor := field bs 15 1
           progLimit := field bs 16 1
           attnMask := BitVec.ofNat 9 (field bs 17 2)
           windows := ws },
         field bs 43 6)
    else none

/-- The tag of a system record (12 Table 12.1). -/
def recordTag (seq wear : Nat) : Tag :=
  { kind := kindSystem, logical := 0, seq := seq, wear := wear, soft := 0, poison := 0 }

/-- The valid record a system page holds, if any (09 R141). -/
def foundRecord (g : Geometry) (bytes : List Byte) : Option FoundRecord :=
  match readTag (tagBytes bytes) with
  | .good t =>
    let cws := decodePage bytes
    if t.kind = kindSystem ∧ cws.all (fun c => c.1 != .uncorrectable) = true then
      (readRecord g (cws.flatMap (·.2))).map (fun r => { seq := t.seq, cfg := r.1, base := r.2 })
    else none
  | _ => none

end Sys2Proof.Machine
end

