-- ==== Sys2Proof/Machine/Engine.lean ====
section
/-! DEFINITION. The commit engine (chapter 5): eligibility, choice of slot and target, program, completion, verify
failure, and the end of a commit at the loss of its lane. -/

namespace Sys2Proof.Machine

/-! ### Eligibility (05 R77) -/

/-- The origin lets the slot be committed on the lane. -/
def Origin.allows : Origin → LaneId → Bool
  | .host, _ => true
  | .relocate, _ => true
  | .migrate t, l => t == l

/-- The slot is eligible for the lane (05 R77). -/
def State.eligible (s : State) (l : LaneId) (k : Nat) : Bool :=
  match s.slot k with
  | none => false
  | some sl =>
    sl.phase == .sealed && s.isOldest sl && (s.lane l).online && !(s.lane l).committing &&
      !(s.lane l).freeList.isEmpty && !s.spent && sl.origin.allows l

/-- The migration test at dispatch: the last page of the free list against the current copy (05 R81). -/
def State.migrationTest (s : State) (l : LaneId) (sl : Slot) : Bool :=
  match (s.lane l).freeList.getLast?, s.entry sl.page with
  | some i, .mapped p _ =>
    s.cfg.migThreshold != 0 &&
      decide ((s.page p).wear + s.cfg.migThreshold ≤ (s.page { lane := l, index := i }).wear)
  | _, _ => false

/-! ### Programs (05 R83) -/

/-- A PAGE PROGRAM starts on the lane: the operation with its 88 bytes, the program counter, the device's ready line
inactive (06 R97, R114). -/
def State.beginProgram (s : State) (l : LaneId) (op : Op) : State :=
  s.modLane l (fun x => { x with op := some op, awaitReady := false, ready := false, programs := x.programs + 1 })

/-- The tag kind of a committed copy, by the slot's origin (05 Table 5.2). -/
def Origin.kind : Origin → Byte
  | .host => kindDataHost
  | .relocate => kindDataRelocate
  | .migrate _ => kindDataMigrate

/-- The tag of a committed copy (05 Table 5.2). -/
def commitTag (sl : Slot) (seq : Nat) (r : PageRec) : Tag :=
  { kind := sl.origin.kind, logical := sl.page, seq := seq, wear := r.wear, soft := r.soft, poison := sl.poison }

/-- The program of a commit's target starts (05 R83). -/
def State.startCommit (s : State) (l : LaneId) (k i q : Nat) : State :=
  match s.slot k with
  | none => s
  | some sl =>
    let t := s.bumpWear { lane := l, index := i }
    t.beginProgram l
      (.commit k .programming i q (pageImage sl.image (commitTag sl q (t.page { lane := l, index := i }))))

/-! ### Dispatch (05 R79 to R81) -/

/-- The page a dispatch allocates: the last of the list for a MIGRATE slot, the first otherwise (01 R11). -/
def Lane.targetFor (x : Lane) (o : Origin) : Option Nat :=
  match o with
  | .migrate _ => x.freeList.getLast?
  | _ => x.freeList.head?

/-- Allocation and hand-over: the page becomes TARGET, the slot PROGRAMMING with the counter's sequence, the lane's
record is made, the space state is recomputed (01 R11, 05 R80). -/
def State.allocate (s : State) (l : LaneId) (k : Nat) (sl : Slot) (i : Nat) : State :=
  let p : PPage := { lane := l, index := i }
  let s1 := s.setPage p { s.page p with state := .target sl.page }
  let s2 := s1.modLane l (fun x =>
    { x with freeList := x.freeList.erase i, op := some (.commit k .programming i s.seq []), awaitReady := true })
  let s3 := s2.setSlot k (some { sl with phase := .programming p s.seq })
  (({ s3 with commitQueue := s3.commitQueue.erase k }).takeSeq).recompute

/-- Begin the commit of a slot on the granted lane; where ready is not seen the operation waits (05 R80, 06 R97). -/
def State.dispatch (s : State) (l : LaneId) (k : Nat) (sl : Slot) (ready : Bool) : State :=
  match (s.lane l).targetFor sl.origin with
  | none => s
  | some i => if ready then (s.allocate l k sl i).startCommit l k i s.seq else s.allocate l k sl i

/-- The discard of a MIGRATE slot (05 R81, R91). -/
def State.discardSlot (s : State) (k : Nat) : State :=
  ({ s with commitQueue := s.commitQueue.erase k }).freeSlot k .discarded

/-- The engine takes the queue from the head and dispatches the first eligible slot; a MIGRATE slot that fails its
test is discarded and the queue is taken again. The fuel bounds the discards by the queue's length (05 R79, R81). -/
def State.commitSelect (s : State) (l : LaneId) (ready : Bool) : Nat → State
  | 0 => s
  | fuel + 1 =>
    match s.commitQueue.find? (s.eligible l) with
    | none => s
    | some k =>
      match s.slot k with
      | none => s
      | some sl =>
        match sl.origin with
        | .migrate _ =>
          if s.migrationTest l sl then s.dispatch l k sl ready
          else (s.discardSlot k).commitSelect l ready fuel
        | _ => s.dispatch l k sl ready

/-! ### Completion (05 R86) -/

/-- The map takes a verified copy: the entry changes only to a greater sequence, and the copy that loses its place
is released (01 R6). The second part is the page released. -/
def State.adopt (s : State) (page : Nat) (p : PPage) (q : Nat) : State × Option PPage :=
  let t := (s.setEntry page (.mapped p q)).setPage p { s.page p with state := .mapped page }
  match s.entry page with
  | .mapped old oq => if oq < q then (t.release old page, some old) else (s.release p page, some p)
  | _ => (t, none)

/-- A RELOCATED or MIGRATED notice: its detail is the released copy's index, plus 32,768 for lane B (05 R86). -/
def moveNotice (kind : NoticeKind) (p old : PPage) (page : Nat) : Notice :=
  { kind := kind, lane := some p.lane, index := some p.index, logical := some page,
    detail := old.index + (match old.lane with | .a => 0 | .b => Config.laneBDetail) }

/-- The notice of a completed move (05 R86). -/
def State.noteMove (s : State) (sl : Slot) (p : PPage) (old : Option PPage) : State :=
  match sl.origin, old with
  | .relocate, some o => s.give (moveNotice .relocated p o sl.page)
  | .migrate _, some o => s.give (moveNotice .migrated p o sl.page)
  | _, _ => s

/-- A verify that matches completes the commit (05 R86, R87). -/
def State.completeCommit (s : State) (l : LaneId) (k i q : Nat) : State :=
  match s.slot k with
  | none => s.endOp l
  | some sl =>
    let p : PPage := { lane := l, index := i }
    let r := s.adopt sl.page p q
    ((((r.1.recompute).noteMove sl p r.2).endOp l).freeSlot k .completed).exhaust

/-! ### Verify failure (05 R88, R89) -/

/-- A VERIFY_FAILED notice (05 R88). -/
def verifyNotice (p : PPage) (page attempts : Nat) : Notice :=
  { kind := .verifyFailed, lane := some p.lane, index := some p.index, logical := some page, detail := attempts }

/-- The statistics counter of verify failures advances. -/
def State.countVerifyFailure (s : State) : State :=
  { s with stats := { s.stats with verifyFailures := s.stats.verifyFailures + 1 } }

/-- A verify that does not match: the target is retired, and the slot is retried or dropped (05 R88, R89). -/
def State.failCommit (s : State) (l : LaneId) (k i : Nat) : State :=
  match s.slot k with
  | none => s.endOp l
  | some sl =>
    let p : PPage := { lane := l, index := i }
    let s1 := (((s.retire p).give (verifyNotice p sl.page (sl.attempts + 1))).countVerifyFailure).endOp l
    let s2 := s1.setSlot k (some { sl with phase := .sealed, attempts := sl.attempts + 1 })
    if sl.attempts + 1 < Config.maxAttempts then (s2.enqueueHead k).exhaust
    else (s2.dropSlot k lostVerify (some p)).exhaust

/-! ### Lane loss (05 R91) -/

/-- The commit in progress ends at the loss of its lane: the target is released, the slot returns to the head of the
queue or, of origin MIGRATE, is discarded; the exhaustion condition is judged by the caller (05 R91, 06 R106). -/
def State.loseCommit (s : State) (l : LaneId) (k i : Nat) : State :=
  match s.slot k with
  | none => s
  | some sl =>
    let s1 := s.release { lane := l, index := i } sl.page
    match sl.origin with
    | .migrate _ => s1.freeSlot k .discarded
    | _ => (s1.setSlot k (some { sl with phase := .sealed })).enqueueHead k

/-- The slot is a MIGRATE slot bound to the lane. -/
def State.boundTo (s : State) (l : LaneId) (k : Nat) : Bool :=
  (s.slot k).any (fun sl => sl.origin == .migrate l)

/-- Every queued MIGRATE slot bound to the lane is discarded, from the head (06 R104). -/
def State.discardBound (s : State) (l : LaneId) : State :=
  (s.commitQueue.filter (s.boundTo l)).foldl State.discardSlot s

end Sys2Proof.Machine
end

