-- ==== Sys2Proof/Machine/Readers.lean ====
section
/-! DEFINITION. What every decoded read does with its outcomes (07 R118, R119) and the relocation requests that
correctable errors make (07 R120). -/

namespace Sys2Proof.Machine

/-- The sequence a decoded read's tag is compared with: the entry's as the read completes, or the entry's as it
stood at the grant when a FORMAT or a shrink has since unmapped or removed it (07 R117). An entry that was unmapped and
has since been mapped anew gives its present sequence (log 36). -/
def State.expectedSeq (s : State) (logical seqAtGrant : Nat) : Nat :=
  match s.entry logical with
  | .mapped _ q => q
  | _ => seqAtGrant

/-- The decoded read of a copy as it completes. -/
def State.decode (s : State) (bytes : List Byte) (logical seqAtGrant : Nat) : Decoded :=
  decodeRead bytes logical (s.expectedSeq logical seqAtGrant)

/-- The outcomes advance the statistics counters (07 R118). -/
def State.countOutcomes (s : State) (d : Decoded) : State :=
  { s with
    stats :=
      { s.stats with
        corrected := s.stats.corrected + BitVec.ofNat 32 (d.count .corrected)
        uncorrectable := s.stats.uncorrectable + BitVec.ofNat 32 (d.count .uncorrectable) } }

/-- An UNCORRECTABLE notice (07 R119). -/
def uncorrectableNotice (p : PPage) (logical : Nat) (d : Decoded) : Notice :=
  { kind := .uncorrectable, lane := some p.lane, index := some p.index, logical := some logical,
    detail := d.detail }

/-- The one UNCORRECTABLE notice of a read, with its flag (07 R119). -/
def State.noteUncorrectable (s : State) (p : PPage) (logical : Nat) (d : Decoded) : State :=
  if d.has .uncorrectable then
    (s.give (uncorrectableNotice p logical d)).flag (fun f => { f with uncorrectable := true })
  else s

/-- What a completed decoded read does before its reader applies the outcomes (07 R118). -/
def State.readEffects (s : State) (p : PPage) (logical : Nat) (d : Decoded) : State :=
  (s.countOutcomes d).noteUncorrectable p logical d

/-- The relocation list holds an entry for the logical page. -/
def State.relocListed (s : State) (logical : Nat) : Bool := s.relocList.any (fun e => e.1 == logical)

/-- A relocation request: taken unless the page has a slot or an entry, or the list is full (07 R120). The request of a
host read whose copy was released meanwhile, by a commit, a FORMAT or a shrink, is judged by R120 alone: its entry joins the
list, and the page it names takes the soft count unless it is FREE by then (01 R9; log 34). -/
def State.relocRequest (s : State) (logical : Nat) (p : PPage) : State :=
  if s.hasSlot logical || s.relocListed logical || decide (Config.relocCapacity ≤ s.relocList.length) then s
  else ({ s with relocList := s.relocList ++ [(logical, p)] }).bumpSoft p

end Sys2Proof.Machine
end

