-- ==== Sys2Proof/Machine/HostPort.lean ====
section
/-! DEFINITION. The host port (chapter 3): admission of writes, assembly of reads, and the taking of the requests
that wait on the link. -/

namespace Sys2Proof.Machine

/-! ### Writes (03 R51 to R56) -/

/-- A write needs a first copy of the page (03 R53). -/
def State.needsFirstCopy (s : State) (page : Nat) : Bool :=
  (s.entry page == .unmapped || s.entry page == .absent) && !s.hasSlot page

/-- The space state forbids the write (03 R53). -/
def State.spaceForbids (s : State) (parts : List Part) : Bool :=
  match s.space with
  | .ample => false
  | .low => parts.any (fun pt => s.needsFirstCopy pt.page)
  | .exhausted => true

/-- A write is a SYNC write when any page it touches has commit mode SYNC (02 R31). -/
def State.isSync (s : State) (parts : List Part) : Bool := parts.any (fun pt => s.commitMode pt.page == .sync)

/-- The statistics counters of a placed write (02 R27). -/
def State.countWrite (s : State) (placed : List Placed) : State :=
  { s with
    stats :=
      { s.stats with
        hostWrites := s.stats.hostWrites + 1
        merged := if placed.any (fun p => !p.opened) then s.stats.merged + 1 else s.stats.merged } }

/-- The slots a SYNC write was merged into owe its answer, which the port holds (02 R31, 03 R56). -/
def State.hold (s : State) (ks : List Nat) : State :=
  { (ks.foldl (fun t k => t.modSlot k (fun sl => { sl with owed := true })) s) with port := .holding ks false }

/-- Place an admitted write and answer it, or hold the answer of a SYNC write (03 R55, R56). -/
def State.placeWrite (s : State) (parts : List Part) : State :=
  let r := s.placeParts parts
  let s1 := r.1.countWrite r.2
  if s.isSync parts then (s1.hold (r.2.map (·.slot))).writeSeals r.2 true
  else (s1.writeSeals r.2 false).answer .done

/-- Take a WRITE: the checks of Table 3.4 in order, then the placing (03 R51). -/
def State.takeWrite (s : State) (addr : Nat) (data : List Byte) : State :=
  if s.mode ≠ .run then s.answer .retry
  else if s.cfg.capacity * Config.dataBytes < addr + data.length then s.answer (.fault .range)
  else if (writeParts addr data).any (fun pt => s.writeProtected pt.page) then s.answer (.fault .writeProtected)
  else if s.spaceForbids (writeParts addr data) then s.answer (.fault .noSpace)
  else if s.freeCount < s.slotsNeeded (writeParts addr data) then s.answer .retry
  else s.placeWrite (writeParts addr data)

/-! ### Reads (03 R58 to R62) -/

/-- The pages of a read with the offsets requested (01 R1): the first page holds the start address. -/
def readParts (addr len : Nat) : List (Nat × Nat × Nat) :=
  let off := addr % Config.dataBytes
  let page := addr / Config.dataBytes
  if off + len ≤ Config.dataBytes then [(page, off, len)]
  else [(page, off, Config.dataBytes - off), (page + 1, 0, off + len - Config.dataBytes)]

/-- The byte a slot gives at an offset, when its valid flag is set (02 R46). -/
def Slot.byteAt (sl : Slot) (off : Nat) : Option ReadByte :=
  match (sl.cells[off]?).join with
  | some b => some { byte := b, poisoned := sl.poison.getLsbD (off / 8) }
  | none => none

/-- The byte from the newest slot of the page whose valid flag for it is set (02 R46). -/
def State.slotByte (s : State) (page off : Nat) : Option ReadByte :=
  match (s.slotsOf page).filter (fun p => (p.2.byteAt off).isSome) with
  | [] => none
  | p :: ps => (ps.foldl newerSlot p).2.byteAt off

/-- How the requested bytes of a page resolve (03 R59). -/
inductive Resolved where
  | whole (bytes : List ReadByte)
  | copy (page : PPage) (seq : Nat) (fromSlots : List (Option ReadByte))
  | noSource
deriving DecidableEq, Repr

/-- An erased byte, clean (03 R59). -/
def erasedRead : ReadByte := { byte := erasedByte, poisoned := false }

/-- The requested bytes of a page that slots give. -/
def State.slotBytes (s : State) (page off len : Nat) : List (Option ReadByte) :=
  (List.range len).map (fun i => s.slotByte page (off + i))

/-- Resolve the sources of the requested bytes of a page (03 R59). -/
def State.resolve (s : State) (page off len : Nat) : Resolved :=
  let got := s.slotBytes page off len
  if got.all Option.isSome then .whole (got.map (·.getD erasedRead))
  else
    match s.entry page with
    | .mapped p q => if (s.lane p.lane).online then .copy p q got else .noSource
    | .unmapped => .whole (got.map (·.getD erasedRead))
    | .absent => .noSource

/-- The page still waits for a claim or a lane read. -/
def ReadPage.open? (rp : ReadPage) : Bool :=
  match rp.progress with
  | .waiting _ => true
  | .granted _ _ => true
  | _ => false

/-- The page's claim ended with the cause. -/
def ReadPage.failedWith (rp : ReadPage) (c : FaultCause) : Bool := rp.progress == .failed c

/-- The page's claim ended without data. -/
def ReadPage.failed (rp : ReadPage) : Bool :=
  match rp.progress with
  | .failed _ => true
  | _ => false

/-- The bytes taken for a page. -/
def ReadPage.bytes (rp : ReadPage) : List ReadByte :=
  match rp.progress with
  | .taken bs _ => bs
  | _ => []

/-- The answer of a read all of whose pages have ended (03 R61; log 14). -/
def readAnswer (ps : List ReadPage) : HostAnswer :=
  if ps.any (·.failedWith .laneOffline) then .fault .laneOffline
  else if ps.any (·.failedWith .range) then .fault .range
  else if (ps.flatMap ReadPage.bytes).any (·.poisoned) then .fault .uncorrectable
  else .data ((ps.flatMap ReadPage.bytes).map (·.byte))

/-- The relocation request a page of a finished read makes, if any (07 R120). -/
def State.pageRequest (s : State) (rp : ReadPage) : State :=
  match rp.progress with
  | .taken _ (some p) => s.relocRequest rp.page p
  | _ => s

/-- A waiting page of a read whose answer is known to be a fault is withdrawn (03 R62). -/
def ReadPage.withdraw (rp : ReadPage) : ReadPage :=
  match rp.progress with
  | .waiting _ => { rp with progress := .withdrawn }
  | _ => rp

/-- Both HOST_READ claims are withdrawn from both lanes. -/
def State.withdrawHostReads (s : State) : State :=
  (s.withdrawBoth (.hostRead false)).withdrawBoth (.hostRead true)

/-- The read goes on: a fault withdraws the claims that wait; when no page is open any more, the read is answered and
its relocation requests follow in page order (03 R61, R62, 07 R120). -/
def State.advanceRead (s : State) (ps : List ReadPage) : State :=
  let failing := ps.any ReadPage.failed
  let ps1 := if failing then ps.map ReadPage.withdraw else ps
  let s1 := if failing then s.withdrawHostReads else s
  if ps1.any ReadPage.open? then { s1 with port := .reading ps1 }
  else ps1.foldl State.pageRequest (s1.answer (readAnswer ps1))

/-- How a page of a read starts (03 R59). -/
def Resolved.start (r : Resolved) : ReadProgress :=
  match r with
  | .whole bs => .taken bs none
  | .copy p _ _ => .waiting p.lane
  | .noSource => .failed .laneOffline

/-- A page of a read as it starts. -/
def State.startPage (s : State) (part : Nat × Nat × Nat) : ReadPage :=
  { page := part.1, off := part.2.1, len := part.2.2, progress := (s.resolve part.1 part.2.1 part.2.2).start }

/-- Post the HOST_READ claim of a page that waits. -/
def State.postPage (s : State) (second : Bool) (rp : ReadPage) : State :=
  match rp.progress with
  | .waiting l => s.post l (.hostRead second)
  | _ => s

/-- Post the claims of a read, the first page first (06 R100). -/
def State.postPages (s : State) : List ReadPage → State
  | [] => s
  | [p] => s.postPage false p
  | p :: q :: _ => (s.postPage false p).postPage true q

/-- Take a READ (03 R58, R59). -/
def State.takeRead (s : State) (addr len : Nat) : State :=
  if s.mode = .mounting then s.answer .retry
  else if s.cfg.capacity * Config.dataBytes < addr + len then s.answer (.fault .range)
  else
    let ps := (readParts addr len).map s.startPage
    if ps.any ReadPage.failed then s.answer (.fault .laneOffline)
    else (s.postPages ps).advanceRead ps

/-- Change the progress of one page of the read in progress and go on (03 R60 to R62). -/
def State.setProgress (s : State) (second : Bool) (g : ReadProgress) : State :=
  match s.port with
  | .reading ps => s.advanceRead (ps.modify (if second then 1 else 0) (fun rp => { rp with progress := g }))
  | _ => s

/-- A page of the read in progress. -/
def State.readPage (s : State) (second : Bool) : Option ReadPage :=
  match s.port with
  | .reading ps => ps[if second then 1 else 0]?
  | _ => none

/-! ### The link (03 R48, R50) -/

/-- Take a request. -/
def State.takeRequest (s : State) : HostRequest → State
  | .write addr data => s.takeWrite addr data
  | .read addr len => s.takeRead addr len

/-- The port takes a request now: it is IDLE and the part acts (03 R48, R50). -/
def State.portTakes (s : State) : Bool := s.alive && s.port == .idle

/-- The requests waiting on the link are taken one after another for as long as the port takes them (03 R48). -/
def State.serveLink (s : State) : State :=
  s.link.foldl (fun t r => if t.portTakes then ({ t with link := t.link.tail }).takeRequest r else t) s

end Sys2Proof.Machine
end

