-- ==== Sys2Proof/Machine/Lanes.lean ====
section
/-! DEFINITION. The lane controllers (chapter 6): the arbiter, the start of an operation, the loss of a lane in
service, retirement marks and record programs; and what every step ends with: the link is served and the claims that
follow from the state are posted or withdrawn. -/

namespace Sys2Proof.Machine

/-! ### The arbiter (06 R99 to R101) -/

/-- Priority of a claim, 1 the highest (06 Table 6.1). -/
def Claim.priority : Claim → Nat
  | .hostRead _ => 1
  | .fillRead _ => 2
  | .recordProgram => 3
  | .commit => 4
  | .relocationRead => 5
  | .mark => 6
  | .patrolRead => 7

/-- The first claim of a priority, the earliest posted. -/
def Lane.firstOf (x : Lane) (n : Nat) : Option Claim := x.claims.find? (fun c => c.priority == n)

/-- The claim the next grant of the lane goes to: the starvation guard's COMMIT, or the highest priority and within
it the earliest posted (06 R100, R101). -/
def Lane.nextClaim (x : Lane) : Option Claim :=
  if x.claims.contains .commit && decide (Config.passOverLimit ≤ x.passOver) then some .commit
  else [1, 2, 3, 4, 5, 6, 7].findSome? x.firstOf

/-- The claim the arbiter grants now, if the lane is free (06 R100). -/
def State.arbiter (s : State) (l : LaneId) : Option Claim :=
  if s.laneFree l then (s.lane l).nextClaim else none

/-- The pass-over count after a grant (06 R101). -/
def Lane.passOverAfter (x : Lane) (c : Claim) : Nat :=
  match c with
  | .commit => 0
  | .hostRead _ => if x.claims.contains .commit then x.passOver + 1 else x.passOver
  | .fillRead _ => if x.claims.contains .commit then x.passOver + 1 else x.passOver
  | _ => x.passOver

/-- The grant of a claim: it no longer waits, the pass-over count follows, the ready line is sensed (06 R97, R101). -/
def State.grant (s : State) (l : LaneId) (c : Claim) (ready : Bool) : State :=
  s.modLane l (fun x =>
    { x with claims := x.claims.erase c, passOver := x.passOverAfter c, ready := ready })

/-- The waiting claims in the order the arbiter would grant them (06 R105). -/
def Lane.inGrantOrder (x : Lane) : List Claim :=
  [1, 2, 3, 4, 5, 6, 7].flatMap (fun n => x.claims.filter (fun c => c.priority == n))

/-- A granted decoded read: it is issued when ready is seen (06 R97). -/
def State.startRead (s : State) (l : LaneId) (reader : Reader) (logical index seq : Nat) (ready : Bool) : State :=
  s.modLane l (fun x => { x with op := some (.read reader logical index seq), awaitReady := !ready })

/-! ### Retirement marks (06 R109) -/

/-- The tag of a retirement mark (06 R109). -/
def markTag (seq : Nat) (r : PageRec) : Tag :=
  { kind := kindRetired, logical := 0xFFFF, seq := seq, wear := r.wear, soft := r.soft, poison := 0 }

/-- The 88 bytes of a retirement mark. -/
def markImage (seq : Nat) (r : PageRec) : List Byte :=
  pageImage (List.replicate Config.dataBytes 0#8) (markTag seq r)

/-- A program may have left the counter spent: the space state is recomputed and the exhaustion condition judged
(01 R16, R18, 05 R82); during a mount the space state keeps its value (01 R19). -/
def State.seqTaken (s : State) : State := if s.mode = .mounting then s else (s.recompute).exhaust

/-- The program of a mark starts; a counter spent while it waited for ready makes none (06 R109, log 8). A mark granted
before a REMOUNT that sees ready in MOUNTING starts there, with the record and the counter as they stand (06 R112;
log 35). -/
def State.startMark (s : State) (l : LaneId) (i : Nat) : State :=
  if s.spent then s.endOp l
  else
    let t := s.bumpWear { lane := l, index := i }
    ((t.takeSeq).beginProgram l (.mark i (markImage s.seq (t.page { lane := l, index := i })))).seqTaken

/-! ### Record programs (11 R164) -/

/-- The system page the next record program goes to (09 R142). -/
def State.nextRecordPage (s : State) : Nat := if s.newestRecord = some 0 then 1 else 0

/-- The configuration a record program writes: SET_CAPACITY puts its new L in place of the L in force (11 R164). -/
def State.recordCfg (s : State) : WorkCfg :=
  match s.longCmd with
  | some (.setCapacity n) => { s.cfg with capacity := n }
  | _ => s.cfg

/-- The format base a record carries: FORMAT puts the sequence its program takes (11 R164). -/
def State.recordBase (s : State) (base seq : Nat) : Nat := if s.longCmd = some .format then seq else base

/-- The 88 bytes of a record program. -/
def recordImage (g : Geometry) (c : WorkCfg) (base seq wear : Nat) : List Byte :=
  pageImage (recordData g c base) (recordTag seq wear)

/-- The program of a system record starts (11 R164; log 8 where the counter was spent while it waited for ready). -/
def State.startRecord (s : State) (i : Nat) (c : WorkCfg) (base : Nat) : State :=
  if s.spent then (s.endOp .a).finishLong resultVerifyFailed none
  else
    let t := s.bumpWear { lane := .a, index := i }
    let b := s.recordBase base s.seq
    let img := recordImage s.geometry c b s.seq (t.page { lane := .a, index := i }).wear
    ((t.takeSeq).beginProgram .a (.record i .programming c b s.seq img)).seqTaken

/-- The grant of a RECORD_PROGRAM (11 R164). -/
def State.grantRecord (s : State) (ready : Bool) : State :=
  if s.spent then s.finishLong resultVerifyFailed none
  else
    let t := s.modLane .a (fun x =>
      { x with op := some (.record s.nextRecordPage .programming s.recordCfg s.formatBase 0 []), awaitReady := true })
    if ready then t.startRecord s.nextRecordPage s.recordCfg s.formatBase else t

/-! ### Ready comes during a wait (06 R97) -/

/-- The waiting operation is issued. -/
def State.issue (s : State) (l : LaneId) : State :=
  match (s.lane l).op with
  | some (.read _ _ _ _) => s.modLane l (fun x => { x with awaitReady := false })
  | some (.commit k _ i q _) => s.startCommit l k i q
  | some (.record i _ c base _ _) => s.startRecord i c base
  | some (.mark i _) => s.startMark l i
  | none => s

/-! ### What is under way on a lane -/

/-- The page of an operation. -/
def Op.index : Op → Nat
  | .read _ _ i _ => i
  | .commit _ _ i _ _ => i
  | .record i _ _ _ _ _ => i
  | .mark i _ => i

/-- The operation is at a PAGE READ; otherwise it is at a PAGE PROGRAM. -/
def Op.isReading : Op → Bool
  | .read _ _ _ _ => true
  | .commit _ ph _ _ _ => ph == .verifying
  | .record _ ph _ _ _ _ => ph == .verifying
  | .mark _ _ => false

/-- The page of a PAGE READ under way. -/
def Lane.readUnderWay (x : Lane) : Option Nat :=
  if x.awaitReady then none else (x.op.filter Op.isReading).map Op.index

/-- The page of a PAGE PROGRAM under way. -/
def Lane.programUnderWay (x : Lane) : Option Nat :=
  if x.awaitReady then none else (x.op.filter (fun o => !o.isReading)).map Op.index

/-! ### The loss of a lane (06 R102 to R106) -/

/-- The causes of LANE_OFFLINE (06 R102). -/
def causeReadTimeout : Nat := 1
def causeProgramTimeout : Nat := 2
def causeReadyTimeout : Nat := 3

/-- A LANE_OFFLINE notice (06 R103). -/
def offlineNotice (l : LaneId) (page : Option Nat) (cause : Nat) : Notice :=
  { kind := .laneOffline, lane := some l, index := page, logical := none, detail := cause }

/-- The lane controller's own part of a loss, with its notice and flag (06 R103). -/
def State.takeOffline (s : State) (l : LaneId) (page : Option Nat) (cause : Nat) : State :=
  ((s.modLane l (fun x =>
      { x with online := false, op := none, awaitReady := false, discard := false, claims := [],
               passOver := 0 })).give (offlineNotice l page cause)).flag (·.setLane l)

/-- The head entry of the relocation list leaves when it is the one read (07 R125; log 22). -/
def State.dropRelocHead (s : State) (logical : Nat) (p : PPage) : State :=
  if s.relocList.head? = some (logical, p) then { s with relocList := s.relocList.tail } else s

/-- The operation in progress at the loss ends on behalf of its claimant; `started` is false when it still waited
for ready, and `held` is true when the exhaustion condition held before the loss (06 R104). -/
def State.endLostOp (s : State) (l : LaneId) (op : Option Op) (started held : Bool) : State :=
  match op with
  | none => s
  | some (.read (.host b) _ _ _) => s.setProgress b (.failed .laneOffline)
  | some (.read (.fill k) _ _ _) => s.fillLost held k
  | some (.read .relocation logical i _) => s.dropRelocHead logical { lane := l, index := i }
  | some (.read .patrol _ _ _) => { s with patrolRead := none }
  | some (.commit k _ i _ _) => s.loseCommit l k i
  | some (.record i _ _ _ _ _) => s.finishLong resultLaneOffline (if started then some i else none)
  | some (.mark _ _) => s

/-- A claim still waiting at the loss is answered without an operation (06 R105). -/
def State.answerLost (held : Bool) (s : State) (c : Claim) : State :=
  match c with
  | .hostRead b => s.setProgress b (.failed .laneOffline)
  | .fillRead k => s.fillLost held k
  | .recordProgram => s.finishLong resultLaneOffline none
  | .patrolRead => { s with patrolRead := none }
  | .commit => s
  | .relocationRead => s
  | .mark => s

/-- A lane goes OFFLINE in service (06 R103 to R106): the operation in progress and the waiting claims end, then the
space state is recomputed once and the exhaustion condition judged with it (log 37). -/
def State.loseLane (s : State) (l : LaneId) (page : Option Nat) (cause : Nat) : State :=
  let x := s.lane l
  let s1 := (s.takeOffline l page cause).endLostOp l x.op (!x.awaitReady) s.exhaustion
  let s2 := x.inGrantOrder.foldl (State.answerLost s.exhaustion) (s1.discardBound l)
  (s2.recompute).exhaust

/-! ### Claims that follow from the state (05 R78, 06 R108, 07 R123) -/

/-- The COMMIT claim of a lane stands exactly while the queue holds a slot eligible for it (05 R78). -/
def State.refreshCommit (s : State) (l : LaneId) : State :=
  if s.commitQueue.any (s.eligible l) then
    if (s.lane l).claims.contains .commit then s else s.post l .commit
  else if (s.lane l).claims.contains .commit then s.withdrawCommit l
  else s

/-- The conditions of a MARK claim (06 R108); a mark under way is not claimed again before its end (06 R109). -/
def State.wantsMark (s : State) (l : LaneId) : Bool :=
  let x := s.lane l
  s.alive && !x.markList.isEmpty && x.online && s.mode == .run && !s.spent &&
    !x.op.any (fun o => match o with | .mark _ _ => true | _ => false)

/-- The MARK claim of a lane (06 R108). -/
def State.refreshMark (s : State) (l : LaneId) : State :=
  if s.wantsMark l then
    if (s.lane l).claims.contains .mark then s else s.post l .mark
  else if (s.lane l).claims.contains .mark then s.withdraw l .mark
  else s

/-- A RELOCATION_READ waits on the lane. -/
def Lane.relocWaits (x : Lane) : Bool := x.claims.contains .relocationRead

/-- A relocation read is granted on the lane. -/
def Lane.relocGranted (x : Lane) : Bool :=
  match x.op with
  | some (.read .relocation _ _ _) => true
  | _ => false

/-- The entry is discarded where it is checked before posting (07 R123). -/
def State.relocStale (s : State) (e : Nat × PPage) : Bool :=
  decide (s.cfg.capacity ≤ e.1) || s.hasSlot e.1 || !s.mappedAt e.1 e.2 || !(s.lane e.2.lane).online

/-- The mode and the pool allow a relocation read (07 R123). -/
def State.relocAllowed (s : State) : Bool :=
  s.alive && s.mode == .run && decide (Config.internalSlotFloor ≤ s.freeCount)

/-- Post the claim for the head entry, after the check that discards stale heads (07 R123). -/
def State.postReloc (s : State) : State :=
  let t : State := { s with relocList := s.relocList.dropWhile s.relocStale }
  match t.relocList with
  | [] => t
  | e :: _ => t.post e.2.lane .relocationRead

/-- The RELOCATION_READ claim of the patrol unit (07 R123). -/
def State.refreshReloc (s : State) : State :=
  if s.laneA.relocWaits || s.laneB.relocWaits then
    if s.relocAllowed && !s.relocList.isEmpty then s else s.withdrawBoth .relocationRead
  else if s.relocAllowed && !s.laneA.relocGranted && !s.laneB.relocGranted then s.postReloc
  else s

/-- The two output lines (10 R153, 11 R173). -/
def State.refreshLines (s : State) : State :=
  { s with drainedLine := s.mode == .drained, attn := s.attnOf }

/-- The claims and lines as the state gives them. -/
def State.refresh (s : State) : State :=
  ((((((s.refreshCommit .a).refreshCommit .b).refreshMark .a).refreshMark .b).refreshReloc).refreshLines)

/-- The end of a step: the requests waiting on the link are taken where the port is IDLE, then claims and lines
follow the state (03 R48, 05 R78, 06 R108, 07 R123, 11 R173). That the link comes before the check of the relocation list
and the other claims is the model's choice (log 42). -/
def State.settle (s : State) : State := s.serveLink.refresh

end Sys2Proof.Machine
end

