-- ==== Sys2Proof/Machine/Modes.lean ====
section
/-! DEFINITION. Mode control (chapter 10): the patrol interval timer's start and stop, the start and the end of a
drain, and a change of the drain cause set. -/

namespace Sys2Proof.Machine

/-- The interval timer is started one patrol interval ahead, or stopped when the interval is 0 (08 R129). -/
def State.startTimer (s : State) : State :=
  { s with timer := if s.cfg.patrolInterval = 0 then none else some s.cfg.patrolInterval }

/-- A waiting PATROL_READ claim is withdrawn and the outstanding record becomes absent (08 R131, 06 R113). -/
def State.withdrawPatrol (s : State) : State :=
  if s.laneA.claims.contains .patrolRead || s.laneB.claims.contains .patrolRead then
    { (s.withdrawBoth .patrolRead) with patrolRead := none }
  else s

/-- The cause set passes from empty to non-empty in RUN: the OPEN slots are sealed, the mode is judged, the timer
stops, and the background reads that wait are withdrawn (10 R155). -/
def State.drainStart (s : State) : State :=
  let t := s.sealAll
  (({ t with mode := t.modeNow, timer := none }).withdrawBoth .relocationRead).withdrawPatrol

/-- The cause set becomes empty: the mode is RUN and the timer starts (10 R157). -/
def State.drainEnd (s : State) : State := ({ s with mode := .run }).startTimer

/-- A change of the drain cause set, judged at once outside MOUNTING (10 R153 to R157). -/
def State.setCauses (s : State) (c : Causes) : State :=
  let t : State := { s with causes := c }
  if s.mode = .mounting then t
  else if s.causes.any = false ∧ c.any = true then t.drainStart
  else if s.causes.any = true ∧ c.any = false then t.drainEnd
  else t

end Sys2Proof.Machine
end

