-- ==== Sys2Proof/Machine/MountUnit.lean ====
section
/-! DEFINITION. The mount unit (chapter 9): the phases of a mount, the judgement of system pages and of the pages of
the scan, the choice of copies, the rebuild, and the end of the mount. -/

namespace Sys2Proof.Machine

/-! ### Helpers -/

/-- What the mount holds for a lane. -/
def Mount.scan (m : Mount) : LaneId → LaneScan
  | .a => m.scanA
  | .b => m.scanB

/-- Replace what the mount holds for a lane. -/
def Mount.setScan (m : Mount) (l : LaneId) (x : LaneScan) : Mount :=
  { m with
    scanA := (match l with | .a => x | .b => m.scanA)
    scanB := (match l with | .a => m.scanB | .b => x) }

/-- The greater of an optional number and a number. -/
def maxOpt (o : Option Nat) (n : Nat) : Option Nat :=
  match o with
  | none => some n
  | some m => some (max m n)

/-- Some present lane is OFFLINE (09 R149). -/
def State.anyOffline (s : State) : Bool :=
  !s.laneA.online || (s.geometry.twoLanes && !s.laneB.online)

/-! ### CHOOSE (09 R145 to R149) -/

/-- The record of a page that is not chosen: RETIRED at a limit, FREE otherwise (09 R145, R148). -/
def State.judged (s : State) (r : PageRec) : PageRec :=
  { r with state := if s.atLimit r then .retired else .free }

/-- The state of a classified page that is not chosen, by the counts it has taken (09 R144, R145, R148; log 38). -/
def State.judgeClass (s : State) (c : Classed) : State :=
  match c.cls with
  | .retired => s.setPage c.page { s.page c.page with state := .retired }
  | .suspect _ => s.setPage c.page (s.judged (s.page c.page))
  | .stale => s.setPage c.page (s.judged (s.page c.page))
  | .candidate _ _ _ => s.setPage c.page (s.judged (s.page c.page))

/-- A candidate copy of one logical page (09 R146). -/
structure Candidate where
  page : PPage
  seq : Nat
  intact : Bool
deriving DecidableEq, Repr

/-- The first candidate is taken as the newer: higher sequence, then lane A, then the lower index (09 R146). -/
def Candidate.newer (c d : Candidate) : Bool :=
  decide (d.seq < c.seq) ||
    (c.seq == d.seq &&
      (match c.page.lane, d.page.lane with
        | .a, .b => true
        | .b, .a => false
        | _, _ => decide (c.page.index < d.page.index)))

/-- Insert a candidate, newest first. -/
def insertCandidate (c : Candidate) : List Candidate → List Candidate
  | [] => [c]
  | d :: ds => if c.newer d then c :: d :: ds else d :: insertCandidate c ds

/-- The candidates of a logical page, newest first. -/
def candidatesOf (classed : List Classed) (logical : Nat) : List Candidate :=
  (classed.filterMap (fun c =>
    match c.cls with
    | .candidate n q ok => if n = logical then some { page := c.page, seq := q, intact := ok } else none
    | _ => none)).foldr insertCandidate []

/-- The details of a TORN_COPY notice (09 R147). -/
def tornDiscarded : Nat := 1
def tornKept : Nat := 2

/-- A TORN_COPY notice (09 R147). -/
def tornNotice (p : PPage) (logical detail : Nat) : Notice :=
  { kind := .tornCopy, lane := some p.lane, index := some p.index, logical := some logical, detail := detail }

/-- Give a TORN_COPY notice and set MOUNT_TORN (09 R147). -/
def State.noteTorn (s : State) (logical detail : Nat) (c : Candidate) : State :=
  (s.give (tornNotice c.page logical detail)).flag (fun f => { f with mountTorn := true })

/-- The chosen copy is MAPPED with its logical page as owner (09 R146). -/
def State.mapChosen (s : State) (logical : Nat) (c : Candidate) : State :=
  (s.setEntry logical (.mapped c.page c.seq)).setPage c.page { s.page c.page with state := .mapped logical }

/-- The choice among the candidates of one logical page, given newest first (09 R146, R147). -/
def State.chooseCopy (s : State) (logical : Nat) (cands : List Candidate) : State :=
  match cands.dropWhile (fun c => !c.intact) with
  | c :: _ =>
    ((cands.takeWhile (fun d => !d.intact)).foldl (fun t d => t.noteTorn logical tornDiscarded d) s).mapChosen
      logical c
  | [] =>
    match cands with
    | [] => s
    | c :: _ => (s.noteTorn logical tornKept c).mapChosen logical c

/-- The choice of one logical page takes some copy that is not intact into a notice. -/
def tornAmong (cands : List Candidate) : Bool :=
  match cands with
  | [] => false
  | c :: _ => !c.intact

/-- Every page of a kept mark list is RETIRED (01 R20, 09 R143, R144). -/
def State.retireMarked (s : State) (l : LaneId) : State :=
  (s.lane l).markList.foldl
    (fun t i => t.setPage { lane := l, index := i } { t.page { lane := l, index := i } with state := .retired }) s

/-- Phase CHOOSE (09 R144 to R149). -/
def State.choosePhase (s : State) (m : Mount) : State :=
  let blankEntry : RemapEntry := if s.anyOffline then .absent else .unmapped
  let s1 := m.classed.foldl State.judgeClass s
  let s2 : State := { s1 with remap := List.replicate s.cfg.capacity blankEntry }
  let s3 := (List.range s.cfg.capacity).foldl (fun t n => t.chooseCopy n (candidatesOf m.classed n)) s2
  (s3.retireMarked .a).retireMarked .b

/-! ### REBUILD and the end of the mount (09 R150, R151) -/

/-- The free list of a lane from its FREE pages (01 R10, 09 R150). -/
def Lane.rebuilt (x : Lane) : Lane :=
  { x with
    freeList :=
      ((List.range x.pages.length).filter (fun i => (x.pages.getD i freshSystemPage).state == .free)).foldr
        (insertFree x.pages) [] }

/-- The sequence counter after a mount (01 R17). -/
def seqAfterMount (high : Option Nat) (base : Nat) : Nat :=
  max (match high with | none => 0 | some h => min (h + 1) Config.seqAllOnes) base

/-- The number of MAPPED remap entries. -/
def State.mappedCount (s : State) : Nat :=
  s.remap.countP (fun e => match e with | .mapped _ _ => true | _ => false)

/-- A bit of a detail. -/
def bit (b : Bool) (n : Nat) : Nat := if b then 2 ^ n else 0

/-- The flags of MOUNT_DONE (09 R150). -/
def State.mountDetail (s : State) (m : Mount) : Nat :=
  bit s.newestRecord.isNone 0 + bit (s.remap.contains .absent) 1 + bit m.tornSeen 2 + bit m.suspectSeen 3 +
    bit (!s.laneA.online) 4 + bit (s.geometry.twoLanes && !s.laneB.online) 5

/-- The MOUNT_DONE notice (09 R150). -/
def State.mountNotice (s : State) (m : Mount) : Notice :=
  { kind := .mountDone, lane := none, index := none, logical := some s.mappedCount, detail := s.mountDetail m }

/-- Phase REBUILD (09 R150). -/
def State.rebuildPhase (s : State) (m : Mount) : State :=
  let t := (s.modLane .a Lane.rebuilt).modLane .b Lane.rebuilt
  let u := ({ t with seq := seqAfterMount m.seqHigh t.formatBase }).recompute
  u.give (u.mountNotice m)

/-- The cursor follows a capacity at or below it (08 R128). -/
def State.clampCursor (s : State) : State :=
  { s with cursor := if s.cfg.capacity ≤ s.cursor then 0 else s.cursor }

/-- The mode leaves MOUNTING; a REMOUNT completes (09 R151). -/
def State.leaveMount (s : State) : State :=
  let t := ({ s with mount := none, mode := s.modeNow }).clampCursor
  let u := if t.mode = .run then t.startTimer else t
  if u.longCmd = some .remount then u.finishLong (if u.anyOffline then resultLaneOffline else resultOk) none else u

/-- The scan has ended: CHOOSE, REBUILD and the end of the mount (09 R139; log 30). -/
def State.finishMount (s : State) (m : Mount) : State :=
  let torn := (List.range s.cfg.capacity).any (fun n => tornAmong (candidatesOf m.classed n))
  ((s.choosePhase m).rebuildPhase { m with tornSeen := m.tornSeen || torn }).leaveMount

/-! ### The end of a lane's scan (09 R145) -/

/-- A SUSPECT page of the lane whose CRC failed takes the lane's highest wear, with soft count 0; its state is decided in
phase CHOOSE (09 R144, R145; log 38). -/
def State.settleSuspect (l : LaneId) (wear : Nat) (s : State) (c : Classed) : State :=
  if c.page.lane = l ∧ c.cls = .suspect true then s.setPage c.page { s.page c.page with wear := wear, soft := 0 }
  else s

/-- A lane has ended its scan, by its last page or by its loss: its SUSPECT pages take the highest wear read on it
(09 R145). -/
def State.settleSuspects (s : State) (m : Mount) (l : LaneId) : State :=
  m.classed.foldl (State.settleSuspect l (m.scan l).wearHigh) s

/-! ### From phase to phase (09 R139) -/

/-- The scan goes on, or ends when no lane has a page to read (09 R143). -/
def State.scanAdvance (s : State) (m : Mount) : State :=
  if m.scanA.reading.isNone && m.scanB.reading.isNone then s.finishMount m
  else { s with mount := some m }

/-- Phase SCAN begins: lane A reads from index 2, lane B from 0, each when ONLINE (09 R143). -/
def State.enterScan (s : State) (m : Mount) : State :=
  let a := if s.laneA.online then some 2 else none
  let b := if s.laneB.online then some 0 else none
  s.scanAdvance
    { m with
      phase := .scan
      scanA := { m.scanA with reading := a }
      scanB := { m.scanB with reading := b } }

/-- The record the mount selects, with its system page: the higher sequence (09 R142). -/
def Mount.selected (m : Mount) : Option (FoundRecord × Nat) :=
  match m.found0, m.found1 with
  | some f, some g => if f.seq < g.seq then some (g, 1) else some (f, 0)
  | some f, none => some (f, 0)
  | none, some g => some (g, 1)
  | none, none => none

/-- The selected record is loaded, or the defaults; the remap table takes its length from L (09 R142). -/
def State.loadRecord (s : State) (m : Mount) : State :=
  match m.selected with
  | some (f, i) =>
    { s with
      cfg := f.cfg, formatBase := f.base, newestRecord := some i, blank := false,
      remap := List.replicate f.cfg.capacity .unmapped }
  | none =>
    { s with
      cfg := defaultCfg s.geometry, formatBase := 0, newestRecord := none, blank := true,
      remap := List.replicate s.geometry.defaultCapacity .unmapped }

/-- Phase RECORD ends: the selection, then the scan (09 R142). -/
def State.endRecord (s : State) (m : Mount) : State := (s.loadRecord m).enterScan m

/-- Phase WAIT ends when every present lane has seen ready or gone OFFLINE; with lane A OFFLINE no record is read
(09 R139, R140). -/
def State.waitAdvance (s : State) (m : Mount) : State :=
  if m.scanA.waiting || m.scanB.waiting then { s with mount := some m }
  else if s.laneA.online then { s with mount := some { m with phase := .record, sysPage := 0 } }
  else s.endRecord m

/-! ### Events of a mount -/

/-- A lane sees its device ready in phase WAIT; a lane that finishes an operation waits for its end (09 R140). -/
def State.mountReady (s : State) (l : LaneId) : State :=
  match s.mount with
  | none => s
  | some m =>
    if m.phase = .wait ∧ (m.scan l).waiting = true ∧ (s.lane l).op = none then
      (s.modLane l (fun x => { x with ready := true })).waitAdvance
        (m.setScan l { m.scan l with waiting := false })
    else s

/-- The record of a system page: the wear of its own tag, or 0 (09 R141). -/
def systemRec (tr : TagRead) : PageRec :=
  { state := .system, wear := (match tr with | .good t => t.wear | _ => 0), soft := 0 }

/-- The highest sequence so far, with a tag's when its CRC matches (09 R150). -/
def seqSeen (o : Option Nat) (tr : TagRead) : Option Nat :=
  match tr with
  | .good t => maxOpt o t.seq
  | _ => o

/-- A system page read in phase RECORD completes (09 R141). -/
def State.systemRead (s : State) (bytes : List Byte) : State :=
  match s.mount with
  | none => s
  | some m =>
    if m.phase = .record then
      let tr := readTag (tagBytes bytes)
      let t := s.setPage { lane := .a, index := m.sysPage } (systemRec tr)
      let m1 := { m with seqHigh := seqSeen m.seqHigh tr }
      if m.sysPage = 0 then
        { t with mount := some { m1 with sysPage := 1, found0 := foundRecord s.geometry bytes } }
      else t.endRecord { m1 with found1 := foundRecord s.geometry bytes }
    else s

/-- The details of a SUSPECT_PAGE notice (09 R144). -/
def suspectCrc : Nat := 1
def suspectSystem : Nat := 2
def suspectKind : Nat := 3

/-- A SUSPECT_PAGE notice (09 R144). -/
def suspectNotice (p : PPage) (detail : Nat) : Notice :=
  { kind := .suspectPage, lane := some p.lane, index := some p.index, logical := none, detail := detail }

/-- A copy is intact: no codeword whose poison flag is clear decoded UNCORRECTABLE (09 R146). -/
def intactCopy (bytes : List Byte) (poison : BitVec 8) : Bool :=
  (List.range 8).all (fun i =>
    poison.getLsbD i || ((decodePage bytes).getD i (.clean, [])).1 != .uncorrectable)

/-- The class of a page by its tag, with the detail of its SUSPECT_PAGE notice (09 R144). -/
def State.classify (s : State) (bytes : List Byte) : Option (PageClass × Option Nat) :=
  match readTag (tagBytes bytes) with
  | .blank => none
  | .badCrc => some (.suspect true, some suspectCrc)
  | .good t =>
    if t.kind = kindSystem then some (.suspect false, some suspectSystem)
    else if t.kind = kindRetired then some (.retired, none)
    else if isDataKind t.kind then
      if s.cfg.capacity ≤ t.logical ∨ t.seq < s.formatBase then some (.stale, none)
      else some (.candidate t.logical t.seq (intactCopy bytes t.poison), none)
    else some (.suspect false, some suspectKind)

/-- A page on a kept mark list is no candidate and gives no notice; only its unreadable wear is still to be set
(09 R144; log 26). -/
def markedClass (c : Option (PageClass × Option Nat)) : Option (PageClass × Option Nat) :=
  match c with
  | some (.suspect true, _) => some (.suspect true, none)
  | _ => none

/-- The record of a page as it is read: the counts of a tag whose CRC matches (09 R145). -/
def scannedRec (tr : TagRead) : PageRec :=
  match tr with
  | .good t => { state := .free, wear := t.wear, soft := t.soft }
  | _ => freshPage

/-- The highest wear of a lane after a page (09 R145). -/
def wearSeen (w : Nat) (tr : TagRead) : Nat :=
  match tr with
  | .good t => max w t.wear
  | _ => w

/-- What the mount holds after the class of one page. -/
def Mount.addClass (m : Mount) (p : PPage) (c : Option (PageClass × Option Nat)) : Mount :=
  match c with
  | none => m
  | some (cls, note) =>
    { m with classed := m.classed ++ [{ page := p, cls := cls }], suspectSeen := m.suspectSeen || note.isSome }

/-- The notice of a class. -/
def State.noteClass (s : State) (p : PPage) (c : Option (PageClass × Option Nat)) : State :=
  match c with
  | some (_, some d) => s.give (suspectNotice p d)
  | _ => s

/-- The read of a page leaves its lane with the next page to read, or with its scan ended (09 R143, R145). -/
def State.scanOnward (s : State) (m : Mount) (l : LaneId) : State :=
  if (m.scan l).reading.isNone then (s.settleSuspects m l).scanAdvance m else s.scanAdvance m

/-- A scan read completes (09 R143 to R145). -/
def State.scanRead (s : State) (l : LaneId) (bytes : List Byte) : State :=
  match s.mount with
  | none => s
  | some m =>
    match (m.scan l).reading with
    | none => s
    | some i =>
      if m.phase = .scan then
        let p : PPage := { lane := l, index := i }
        let tr := readTag (tagBytes bytes)
        let c := if (s.lane l).markList.contains i then markedClass (s.classify bytes) else s.classify bytes
        let m1 := { (m.addClass p c) with seqHigh := seqSeen m.seqHigh tr }
        let next := if i + 1 < s.geometry.pagesPerLane then some (i + 1) else none
        ((s.setPage p (scannedRec tr)).noteClass p c).scanOnward
          (m1.setScan l { m1.scan l with reading := next, wearHigh := wearSeen (m1.scan l).wearHigh tr }) l
      else s

/-- The mount goes on after a lane was lost in it (09 R139 to R143). -/
def State.mountAfterLoss (s : State) (l : LaneId) : State :=
  match s.mount with
  | none => s
  | some m =>
    let m1 := m.setScan l { m.scan l with waiting := false, reading := none }
    match m.phase with
    | .wait => s.waitAdvance m1
    | .record => if l = .a then s.endRecord m1 else { s with mount := some m1 }
    | .scan => if (m.scan l).reading.isSome then s.scanOnward m1 l else s.scanAdvance m1
    | .choose => s
    | .rebuild => s

/-- A lane goes OFFLINE during a mount; a patrol read it was finishing leaves its record (06 R112, 09 R140). -/
def State.mountLose (s : State) (l : LaneId) (page : Option Nat) (cause : Nat) : State :=
  let t :=
    match (s.lane l).op with
    | some (.read .patrol _ _ _) => { s with patrolRead := none }
    | _ => s
  (t.takeOffline l page cause).mountAfterLoss l

/-! ### The start of a mount -/

/-- An operation that a REMOUNT lets run to its end (06 R112). -/
def Op.outlives : Op → Bool
  | .read _ _ _ _ => true
  | .mark _ _ => true
  | .commit _ _ _ _ _ => false
  | .record _ _ _ _ _ _ => false

/-- A lane at the start of a REMOUNT: ONLINE, its page table and free list cleared, its mark list kept, and a granted
read or mark running to its end with its outcome discarded (06 R112, 01 R20). -/
def Lane.remounted (x : Lane) (g : Geometry) (l : LaneId) : Lane :=
  { x with
    online := g.has l
    pages := freshPages g l
    freeList := []
    claims := []
    passOver := 0
    op := x.op.filter Op.outlives
    awaitReady := x.awaitReady && (x.op.filter Op.outlives).isSome
    discard := (x.op.filter Op.outlives).isSome }

/-- The host port as MOUNTING begins: a read in progress is answered RETRY (03 R63). -/
def State.endReadAtMount (s : State) : State :=
  match s.port with
  | .reading _ => (s.withdrawHostReads).answer .retry
  | _ => s

/-- A REMOUNT begins its mount (09 R138, 01 R20). The newest record keeps its page until this mount's selection (09 R142;
log 24). -/
def State.beginRemount (s : State) : State :=
  let t := s.endReadAtMount
  { t with
    mode := .mounting
    mount := some (freshMount t.geometry)
    remap := List.replicate t.cfg.capacity .unmapped
    laneA := t.laneA.remounted t.geometry .a
    laneB := t.laneB.remounted t.geometry .b
    relocList := []
    timer := none }

end Sys2Proof.Machine
end

