-- ==== Sys2Proof/Machine/Patrol.lean ====
section
/-! DEFINITION. The patrol unit (chapter 8) and the service of the relocation list (07 R123 to R125). -/

namespace Sys2Proof.Machine

/-! ### The search (08 R130) -/

/-- The page is passed over by the search: not MAPPED, staged, or its copy on an OFFLINE lane (08 R130). -/
def State.passedOver (s : State) (n : Nat) : Bool :=
  match s.entry n with
  | .mapped p _ => s.hasSlot n || !(s.lane p.lane).online
  | _ => true

/-- The logical pages in the order of the search: from the cursor upward, page L - 1 followed by page 0. -/
def State.searchOrder (s : State) : List Nat :=
  (List.range s.cfg.capacity).map (fun i => (s.cursor + i) % s.cfg.capacity)

/-- The patrol page, with the physical page of its copy (08 R130). -/
def State.patrolPage (s : State) : Option (Nat × PPage) :=
  match s.searchOrder.find? (fun n => !s.passedOver n) with
  | none => none
  | some n =>
    match s.entry n with
    | .mapped p _ => some (n, p)
    | _ => none

/-- The cursor and the pass count after a search that found page n (08 R130). -/
def State.advanceCursor (s : State) (n : Nat) : State :=
  { s with
    cursor := if n + 1 = s.cfg.capacity then 0 else n + 1
    passCount := if n + 1 = s.cfg.capacity ∨ n < s.cursor then s.passCount + 1 else s.passCount }

/-- The search of an expiry: with no read outstanding a PATROL_READ is posted for the patrol page (08 R130). -/
def State.patrolSearch (s : State) : State :=
  match s.patrolRead, s.patrolPage with
  | none, some (n, p) =>
    { ((s.advanceCursor n).post p.lane .patrolRead) with patrolRead := some (n, p) }
  | _, _ => s

/-! ### Grants (07 R124, 08 R131) -/

/-- The record of a read no longer holds: the logical page is at or above L, has a slot, or is not mapped at the
physical page (07 R124, 08 R131). -/
def State.staleRead (s : State) (logical : Nat) (p : PPage) : Bool :=
  decide (s.cfg.capacity ≤ logical) || s.hasSlot logical || !s.mappedAt logical p

/-- The sequence an entry holds. -/
def State.entrySeq (s : State) (logical : Nat) : Nat :=
  match s.entry logical with
  | .mapped _ q => q
  | _ => 0

/-- A RELOCATION_READ is granted: a stale head is discarded with no operation, else its page is read (07 R124). -/
def State.relocationGrant (s : State) (l : LaneId) (ready : Bool) : State :=
  match s.relocList with
  | [] => s
  | (n, p) :: rest =>
    if s.staleRead n p then { s with relocList := rest }
    else s.startRead l .relocation n p.index (s.entrySeq n) ready

/-- A PATROL_READ is granted: a stale record ends with no operation, else its page is read (08 R131). -/
def State.patrolGrant (s : State) (l : LaneId) (ready : Bool) : State :=
  match s.patrolRead with
  | none => s
  | some (n, p) =>
    if s.staleRead n p then { s with patrolRead := none }
    else s.startRead l .patrol n p.index (s.entrySeq n) ready

/-! ### Completions (07 R125, 08 R132 to R135) -/

/-- What a completed relocation read makes of the head entry (07 R125). -/
def State.relocationOutcome (s : State) (logical : Nat) (p : PPage) (d : Decoded) : State :=
  if s.staleRead logical p then s.dropRelocHead logical p
  else
    match s.createSlot logical .relocate d.data d.poisonFound with
    | some t => t.dropRelocHead logical p
    | none => s

/-- A weakened copy (08 R133): a RELOCATE slot and the soft count, or a relocation request. -/
def State.weakened (s : State) (logical : Nat) (p : PPage) (d : Decoded) : State :=
  match s.createSlot logical .relocate d.data d.poisonFound with
  | some t => if s.relocListed logical then t else t.bumpSoft p
  | none => s.relocRequest logical p

/-- A newly lost codeword or a failed tag (08 R134): a RELOCATE slot with the poison, or nothing. -/
def State.newlyLost (s : State) (logical : Nat) (d : Decoded) : State :=
  (s.createSlot logical .relocate d.data d.poisonFound).getD s

/-- The lane's free list gives a page worn enough for a migration (08 R135). -/
def State.migrationLane (s : State) (l : LaneId) (wear : Nat) : Bool :=
  (s.lane l).online &&
    (match (s.lane l).freeList.getLast? with
      | some i => decide (wear + s.cfg.migThreshold ≤ (s.page { lane := l, index := i }).wear)
      | none => false)

/-- The target lane of a migration, when its condition holds: lane A before lane B (08 R135). -/
def State.migrationTarget (s : State) (p : PPage) : Option LaneId :=
  if s.cfg.migThreshold = 0 then none
  else if s.migrationLane .a (s.page p).wear then some .a
  else if s.migrationLane .b (s.page p).wear then some .b
  else none

/-- A sound copy (08 R135). -/
def State.sound (s : State) (logical : Nat) (p : PPage) (d : Decoded) : State :=
  match s.migrationTarget p with
  | some l => (s.createSlot logical (.migrate l) d.data d.poisonFound).getD s
  | none => s

/-- The classes of Table 8.1, the first that applies (08 R132). -/
def State.patrolOutcome (s : State) (logical : Nat) (p : PPage) (d : Decoded) : State :=
  if s.staleRead logical p then s
  else if d.has .corrected then s.weakened logical p d
  else if d.tag ≠ .good ∨ d.newlyLost ≠ 0 then s.newlyLost logical d
  else s.sound logical p d

end Sys2Proof.Machine
end

