-- ==== Sys2Proof/Machine/Completions.lean ====
section
/-! DEFINITION. The ends of lane operations: decoded reads (07 R118), commits (05 R85 to R89), record programs
(11 R164, R165) and retirement marks (06 R109). A completion is the event only while the operation it names is under
way on the lane (log 2). -/

namespace Sys2Proof.Machine

/-! ### Decoded reads -/

/-- The decoded read under way on a lane: its reader, logical page, index and sequence at the grant. -/
def Lane.readOp (x : Lane) : Option (Reader × Nat × Nat × Nat) :=
  if x.awaitReady then none
  else
    match x.op with
    | some (.read r n i q) => some (r, n, i, q)
    | _ => none

/-- The byte of a decoded copy at an offset, poisoned when its codeword is UNCORRECTABLE (03 R61). -/
def Decoded.byteAt (d : Decoded) (off : Nat) : ReadByte :=
  { byte := d.data.getD off erasedByte, poisoned := d.outcome (off / 8) == .uncorrectable }

/-- The requested bytes of a page: those slots gave at the grant, the others from the copy (03 R60, R61). -/
def ReadPage.combine (rp : ReadPage) (got : List (Option ReadByte)) (d : Decoded) : List ReadByte :=
  (List.range rp.len).map (fun j => ((got[j]?).join).getD (d.byteAt (rp.off + j)))

/-- The bytes of a granted page are taken from the decoded copy, with the relocation request it will make
(03 R61, 07 R120). -/
def State.takeCopy (s : State) (second : Bool) (p : PPage) (d : Decoded) : State :=
  match s.readPage second with
  | none => s
  | some rp =>
    match rp.progress with
    | .granted _ got =>
      s.setProgress second (.taken (rp.combine got d) (if d.has .corrected then some p else none))
    | _ => s

/-- The read ends: the lane is released, and the outcomes are counted and noted (07 R118). -/
def State.readEnds (s : State) (l : LaneId) (n i : Nat) (d : Decoded) : State :=
  (s.endOp l).readEffects { lane := l, index := i } n d

/-- A host read's lane read completes (03 R61). -/
def State.hostReadDone (s : State) (l : LaneId) (second : Bool) (n i q : Nat) (bytes : List Byte) : State :=
  if (s.lane l).discard then s.endOp l
  else
    (s.readEnds l n i (s.decode bytes n q)).takeCopy second { lane := l, index := i } (s.decode bytes n q)

/-- A CORRECTED codeword that the slot's valid mask does not fully cover (07 R121). -/
def correctedUncovered (sl : Slot) (d : Decoded) : Bool :=
  (List.range 8).any (fun i => d.outcome i == .corrected && !sl.coveredMask.getLsbD i)

/-- The fill of a slot from a decoded copy, with the soft count of the page read (02 R40, 07 R121). -/
def State.fillFromCopy (s : State) (k : Nat) (p : PPage) (d : Decoded) : State :=
  match s.slot k with
  | none => s
  | some sl => (if correctedUncovered sl d then s.bumpSoft p else s).completeFill k d.data d.poisonFound

/-- A fill read completes (02 R40, R41). -/
def State.fillReadDone (s : State) (l : LaneId) (k n i q : Nat) (bytes : List Byte) : State :=
  if (s.lane l).discard then s.endOp l
  else (s.readEnds l n i (s.decode bytes n q)).fillFromCopy k { lane := l, index := i } (s.decode bytes n q)

/-- A relocation read completes (07 R125). -/
def State.relocationDone (s : State) (l : LaneId) (n i q : Nat) (bytes : List Byte) : State :=
  if (s.lane l).discard then s.endOp l
  else
    (s.readEnds l n i (s.decode bytes n q)).relocationOutcome n { lane := l, index := i } (s.decode bytes n q)

/-- A patrol read completes (08 R132). -/
def State.patrolDone (s : State) (l : LaneId) (n i q : Nat) (bytes : List Byte) : State :=
  if (s.lane l).discard then { (s.endOp l) with patrolRead := none }
  else
    ({ (s.readEnds l n i (s.decode bytes n q)) with patrolRead := none }).patrolOutcome n
      { lane := l, index := i } (s.decode bytes n q)

/-! ### Commits (05 R83 to R89) -/

/-- The commit under way on a lane: slot, phase, index, sequence and the bytes programmed. -/
def Lane.commitOp (x : Lane) : Option (Nat × ProgPhase × Nat × Nat × List Byte) :=
  if x.awaitReady then none
  else
    match x.op with
    | some (.commit k ph i q data) => some (k, ph, i, q, data)
    | _ => none

/-- Ready is seen after a commit's program: slot and record become VERIFYING (05 R83). -/
def State.commitProgrammed (s : State) (l : LaneId) (k i q : Nat) (data : List Byte) : State :=
  (s.modLane l (fun x => { x with ready := true, op := some (.commit k .verifying i q data) })).modSlot k
    (fun sl => { sl with phase := .verifying { lane := l, index := i } q })

/-- The read-back is compared with what was programmed (05 R85). -/
def State.commitVerified (s : State) (l : LaneId) (k i q : Nat) (data bytes : List Byte) : State :=
  if bytes = data then s.completeCommit l k i q else s.failCommit l k i

/-! ### Record programs (11 R164, R165) -/

/-- The record program under way on lane A. -/
def Lane.recordOp (x : Lane) : Option (Nat × ProgPhase × WorkCfg × Nat × Nat × List Byte) :=
  if x.awaitReady then none
  else
    match x.op with
    | some (.record i ph c base q data) => some (i, ph, c, base, q, data)
    | _ => none

/-- Ready is seen after a record program: the page is read back (11 R164). -/
def State.recordProgrammed (s : State) (i : Nat) (c : WorkCfg) (base q : Nat) (data : List Byte) : State :=
  s.modLane .a (fun x => { x with ready := true, op := some (.record i .verifying c base q data) })

/-- The copy of a MAPPED entry is released (01 R21, R22). -/
def State.releaseEntry (s : State) (n : Nat) : State :=
  match s.entry n with
  | .mapped p _ => s.release p n
  | _ => s

/-- The remap table takes a new length: the entries beyond it are released from the lowest upward and removed, new
ones are UNMAPPED; the space state is recomputed and the cursor follows (01 R22, 08 R128). -/
def State.resize (s : State) (newCap : Nat) : State :=
  let t := (List.range' newCap (s.cfg.capacity - newCap)).foldl State.releaseEntry s
  (({ t with
      remap := t.remap.take newCap ++ List.replicate (newCap - s.cfg.capacity) RemapEntry.unmapped
      cfg := { t.cfg with capacity := newCap } }).recompute).clampCursor

/-- FORMAT changes the map: every copy is released from logical page 0 upward, every entry becomes UNMAPPED, the
relocation list is emptied, the recorded format base is in force (01 R21, 11 R165). -/
def State.formatMap (s : State) (base : Nat) : State :=
  let t := (List.range s.cfg.capacity).foldl State.releaseEntry s
  ({ t with
      remap := List.replicate s.cfg.capacity .unmapped
      relocList := []
      formatBase := base }).recompute

/-- What a verified record changes, by the long command that programmed it (11 R165). -/
def State.applyRecord (s : State) (base : Nat) : State :=
  match s.longCmd with
  | some (.setCapacity n) => s.resize n
  | some .format => s.formatMap base
  | _ => s

/-- The record read-back is compared: the command ends with its result (11 R164). -/
def State.recordVerified (s : State) (i base : Nat) (data bytes : List Byte) : State :=
  if bytes = data then
    (({ (s.endOp .a) with newestRecord := some i, blank := false }).applyRecord base).finishLong resultOk (some i)
  else (s.endOp .a).finishLong resultVerifyFailed (some i)

/-! ### Retirement marks (06 R109) -/

/-- The mark program under way on a lane. -/
def Lane.markOp (x : Lane) : Option Nat :=
  if x.awaitReady then none
  else
    match x.op with
    | some (.mark i _) => some i
    | _ => none

/-- Ready is seen after a mark: its page leaves the head of the mark list and the lane is released (06 R109). -/
def State.markDone (s : State) (l : LaneId) (i : Nat) : State :=
  (s.modLane l (fun x =>
    { x with
      ready := true
      markList := if x.markList.head? = some i then x.markList.tail else x.markList })).endOp l

/-! ### The commands -/

/-- HOST_READ_DONE (03 R61). -/
def execHostReadDone (l : LaneId) (bytes : List Byte) (s : State) : Host.Outcome State Fault Refusal :=
  if bytes.length = Config.pageBytes then
    (match (s.lane l).readOp with
      | some (.host b, n, i, q) => .next (s.hostReadDone l b n i q bytes).settle
      | _ => .next s)
  else .fault .transferLength

/-- FILL_READ_DONE (02 R40). -/
def execFillReadDone (l : LaneId) (bytes : List Byte) (s : State) : Host.Outcome State Fault Refusal :=
  if bytes.length = Config.pageBytes then
    (match (s.lane l).readOp with
      | some (.fill k, n, i, q) => .next (s.fillReadDone l k n i q bytes).settle
      | _ => .next s)
  else .fault .transferLength

/-- RELOCATION_READ_DONE (07 R125). -/
def execRelocationReadDone (l : LaneId) (bytes : List Byte) (s : State) : Host.Outcome State Fault Refusal :=
  if bytes.length = Config.pageBytes then
    (match (s.lane l).readOp with
      | some (.relocation, n, i, q) => .next (s.relocationDone l n i q bytes).settle
      | _ => .next s)
  else .fault .transferLength

/-- PATROL_READ_DONE (08 R132). -/
def execPatrolReadDone (l : LaneId) (bytes : List Byte) (s : State) : Host.Outcome State Fault Refusal :=
  if bytes.length = Config.pageBytes then
    (match (s.lane l).readOp with
      | some (.patrol, n, i, q) => .next (s.patrolDone l n i q bytes).settle
      | _ => .next s)
  else .fault .transferLength

/-- COMMIT_PROGRAM_DONE (05 R83). -/
def execCommitProgramDone (l : LaneId) (s : State) : Host.Outcome State Fault Refusal :=
  match (s.lane l).commitOp with
  | some (k, .programming, i, q, data) => .next (s.commitProgrammed l k i q data).settle
  | _ => .next s

/-- COMMIT_VERIFY_DONE (05 R85). -/
def execCommitVerifyDone (l : LaneId) (bytes : List Byte) (s : State) : Host.Outcome State Fault Refusal :=
  if bytes.length = Config.pageBytes then
    (match (s.lane l).commitOp with
      | some (k, .verifying, i, q, data) => .next (s.commitVerified l k i q data bytes).settle
      | _ => .next s)
  else .fault .transferLength

/-- RECORD_PROGRAM_DONE (11 R164). -/
def execRecordProgramDone (s : State) : Host.Outcome State Fault Refusal :=
  match s.laneA.recordOp with
  | some (i, .programming, c, base, q, data) => .next (s.recordProgrammed i c base q data).settle
  | _ => .next s

/-- RECORD_READ_BACK_DONE (11 R164). -/
def execRecordReadBackDone (bytes : List Byte) (s : State) : Host.Outcome State Fault Refusal :=
  if bytes.length = Config.pageBytes then
    (match s.laneA.recordOp with
      | some (i, .verifying, _, base, _, data) => .next (s.recordVerified i base data bytes).settle
      | _ => .next s)
  else .fault .transferLength

/-- MARK_PROGRAM_DONE (06 R109). -/
def execMarkProgramDone (l : LaneId) (s : State) : Host.Outcome State Fault Refusal :=
  match (s.lane l).markOp with
  | some i => .next (s.markDone l i).settle
  | none => .next s

end Sys2Proof.Machine
end

