-- ==== Sys2Proof/Machine/Reports.lean ====
section
/-! DEFINITION. The data of the reporting commands (11 Table 11.3) and the notice record (12 Table 12.7), encoded by
12 R177. What R177 leaves to reading (flags given alone, fixed numbers of items, the order of a page's slots) is in
log 15. -/

namespace Sys2Proof.Machine

/-! ### Fields (12 R177) -/

/-- A number in n bytes, all ones when it is absent. -/
def optBytes (n : Nat) : Option Nat → List Byte
  | some v => beBytes n v
  | none => List.replicate n 0xFF#8

/-- The code of a lane. -/
def laneCode : LaneId → Nat
  | .a => 0
  | .b => 1

/-- A physical page: lane byte and 2-byte index; all ones when absent. -/
def pageBytes (p : Option PPage) : List Byte :=
  optBytes 1 (p.map (fun x => laneCode x.lane)) ++ optBytes 2 (p.map (·.index))

/-- A set of flags, in the order listed from bit 0; at most eight of them. -/
def flagByte (fs : List Bool) : Byte := cwMask (fun i => fs.getD i false)

/-- A list: a count byte, then its items. -/
def listBytes {α : Type} (item : α → List Byte) (l : List α) : List Byte :=
  beBytes 1 l.length ++ l.flatMap item

/-- One byte of code. -/
def codeByte (n : Nat) : List Byte := beBytes 1 n

/-! ### Codes, from 0 in the order of the manual's lists (12 R177) -/

def Mode.code : Mode → Nat
  | .mounting => 0
  | .run => 1
  | .draining => 2
  | .drained => 3

def MountPhase.code : MountPhase → Nat
  | .wait => 0
  | .record => 1
  | .scan => 2
  | .choose => 3
  | .rebuild => 4

def Port.code : Port → Nat
  | .idle => 0
  | .reading _ => 1
  | .holding _ _ => 2

/-- The slots that owe the held answer (03 R50), in the order of the write's parts: the lower page's slot first
(log 15). -/
def Port.owing : Port → List Nat
  | .holding ks _ => ks
  | _ => []

def ProgPhase.code : ProgPhase → Nat
  | .programming => 0
  | .verifying => 1

/-- A slot that is not FREE has a code from 1 on. -/
def SlotPhase.code : SlotPhase → Nat
  | .opened _ => 1
  | .filling => 2
  | .sealed => 3
  | .programming _ _ => 4
  | .verifying _ _ => 5

def RemapEntry.code : RemapEntry → Nat
  | .unmapped => 0
  | .mapped _ _ => 1
  | .absent => 2

def PageState.code : PageState → Nat
  | .system => 0
  | .free => 1
  | .mapped _ => 2
  | .target _ => 3
  | .retired => 4

def NoticeKind.code : NoticeKind → Nat
  | .commitLost => 1
  | .verifyFailed => 2
  | .pageRetired => 3
  | .uncorrectable => 4
  | .relocated => 5
  | .migrated => 6
  | .laneOffline => 7
  | .tornCopy => 8
  | .suspectPage => 9
  | .spaceChanged => 10
  | .commandDone => 11
  | .mountDone => 12

/-- The eight bytes of a notice (12 Table 12.7). -/
def Notice.bytes (n : Notice) : List Byte :=
  codeByte n.kind.code ++ optBytes 1 (n.lane.map laneCode) ++ optBytes 2 n.index ++ optBytes 2 n.logical ++
    beBytes 2 n.detail

/-! ### The reports (11 Table 11.3) -/

/-- The present lanes. -/
def State.lanes (s : State) : List Lane := if s.geometry.twoLanes then [s.laneA, s.laneB] else [s.laneA]

/-- The present lanes with their names. -/
def State.namedLanes (s : State) : List (LaneId × Lane) :=
  if s.geometry.twoLanes then [(.a, s.laneA), (.b, s.laneB)] else [(.a, s.laneA)]

/-- A lane's state and its commit in progress: slot number and phase, all ones where there is none, with no flag byte beside
them (05 R76, 06 R102; log 15). -/
def Lane.statusBytes (x : Lane) : List Byte :=
  codeByte (if x.online then 0 else 1) ++
    (match x.op with
      | some (.commit k ph _ _ _) => codeByte k ++ codeByte ph.code
      | _ => [0xFF#8, 0xFF#8])

/-- GET_STATUS. -/
def State.statusReport (s : State) : List Byte :=
  codeByte s.mode.code ++ [flagByte [s.causes.maintenance, s.causes.power]] ++
    optBytes 1 (s.mount.map (fun m => m.phase.code)) ++ [flagByte [s.blank]] ++
    codeByte s.port.code ++ listBytes codeByte s.port.owing ++ s.lanes.flatMap Lane.statusBytes ++
    [flagByte [!s.allFree], flagByte [s.wprotSampled, s.anySealed], flagByte [s.timer.isSome]] ++
    optBytes 2 (s.patrolRead.map (·.1)) ++ pageBytes (s.patrolRead.map (·.2)) ++
    optBytes 1 (s.longCmd.map LongCmd.code) ++ codeByte s.space.code ++ [flagByte s.faults.bits] ++
    beBytes 2 s.notices.length

/-- GET_CONFIG. -/
def State.configReport (s : State) : List Byte :=
  codeByte s.geometry.code ++ beBytes 2 s.cfg.capacity ++ beBytes 2 s.cfg.holdTime ++
    beBytes 2 s.cfg.patrolInterval ++ beBytes 3 s.cfg.migThreshold ++ beBytes 3 s.cfg.wearLimit ++
    beBytes 1 s.cfg.softLimit ++ beBytes 1 s.cfg.reserveFloor ++ beBytes 1 s.cfg.progLimit ++
    beBytes 2 s.cfg.attnMask.toNat ++ s.cfg.windows.flatMap windowBytes ++ beBytes 6 s.formatBase ++
    pageBytes (s.newestRecord.map (fun i => { lane := .a, index := i }))

/-- A lane's lists: free list length with first and last page, and mark list length (06 R114). -/
def poolBytes (p : LaneId × Lane) : List Byte :=
  beBytes 2 p.2.freeList.length ++ pageBytes (p.2.freeList.head?.map (fun i => { lane := p.1, index := i })) ++
    pageBytes (p.2.freeList.getLast?.map (fun i => { lane := p.1, index := i })) ++
    beBytes 2 p.2.markList.length

/-- An entry of the relocation list. -/
def relocBytes (e : Nat × PPage) : List Byte := beBytes 2 e.1 ++ pageBytes (some e.2)

/-- GET_POOLS. -/
def State.poolsReport (s : State) : List Byte :=
  beBytes 2 s.freeCount ++ listBytes codeByte s.commitQueue ++ s.namedLanes.flatMap poolBytes ++
    codeByte s.space.code ++ beBytes 6 s.seq ++ listBytes relocBytes s.relocList

/-- GET_COUNTERS: the statistics counters in the order of Table 11.4, the dropped count, the cursor, the pass
count. -/
def State.countersReport (s : State) : List Byte :=
  beBytes 4 s.stats.hostWrites.toNat ++ beBytes 4 s.stats.merged.toNat ++ beBytes 4 s.stats.retries.toNat ++
    beBytes 4 s.laneA.programs.toNat ++ beBytes 4 s.laneB.programs.toNat ++
    beBytes 4 s.stats.verifyFailures.toNat ++ beBytes 4 s.stats.corrected.toNat ++
    beBytes 4 s.stats.uncorrectable.toNat ++ beBytes 2 s.dropped ++ beBytes 2 s.cursor ++
    beBytes 4 s.passCount.toNat

/-- The remap entry: state, physical page, sequence. -/
def RemapEntry.bytes : RemapEntry → List Byte
  | .mapped p q => codeByte 1 ++ pageBytes (some p) ++ beBytes 6 q
  | e => codeByte e.code ++ pageBytes none ++ optBytes 6 none

/-- The target of a slot in flight, with its sequence. -/
def Slot.target (sl : Slot) : Option PPage :=
  match sl.phase with
  | .programming p _ => some p
  | .verifying p _ => some p
  | _ => none

/-- The target lane of a MIGRATE slot. -/
def Origin.targetLane : Origin → Option LaneId
  | .migrate l => some l
  | _ => none

/-- A slot as INSPECT_LOGICAL reports it (02 R47). -/
def slotEntryBytes (p : Nat × Slot) : List Byte :=
  codeByte p.1 ++ codeByte p.2.phase.code ++ codeByte p.2.origin.code ++ beBytes 8 p.2.stamp ++
    beBytes 2 (p.2.cells.countP Option.isSome) ++ [p.2.poison] ++ beBytes 2 p.2.attempts ++
    [flagByte [p.2.flushMark, p.2.owed]] ++ pageBytes p.2.target ++
    optBytes 1 (p.2.origin.targetLane.map laneCode)

/-- INSPECT_LOGICAL. -/
def State.logicalReport (s : State) (n : Nat) : List Byte :=
  (s.entry n).bytes ++ listBytes slotEntryBytes (s.slotsOf n) ++ codeByte (s.protection n).rank ++
    codeByte (s.commitMode n).code ++ [flagByte [s.writeProtected n]]

/-- The owner of a page. -/
def PageState.owner : PageState → Option Nat
  | .mapped n => some n
  | .target n => some n
  | _ => none

/-- INSPECT_PHYSICAL. -/
def State.physicalReport (s : State) (p : PPage) : List Byte :=
  codeByte (s.page p).state.code ++ beBytes 3 (s.page p).wear ++ beBytes 2 (s.page p).soft ++
    optBytes 2 (s.page p).state.owner ++ [flagByte [(s.lane p.lane).markList.contains p.index]]

end Sys2Proof.Machine
end

