-- ==== Sys2Proof/Machine/Maintenance.lean ====
section
/-! DEFINITION. The maintenance port (chapter 11): how a command frame is judged and answered (R160 to R162), what
the commands change, and the select period. -/

namespace Sys2Proof.Machine

/-! ### Frames and answers (11 R160, R161) -/

/-- Answer statuses (12 Table 12.5). -/
def statusOk : Nat := 0x01
def statusAccepted : Nat := 0x02
def statusBadFrame : Nat := 0x10
def statusUnknown : Nat := 0x11
def statusInvalid : Nat := 0x12
def statusBusy : Nat := 0x13
def statusWrongMode : Nat := 0x14
def statusSealedConflict : Nat := 0x15

/-- An answer frame but for its CRC: status, data length, data (11 R160). -/
def answerBody (status : Nat) (data : List Byte) : List Byte :=
  [BitVec.ofNat 8 status, BitVec.ofNat 8 data.length] ++ data

/-- An answer frame (11 R160). -/
def answerFrame (status : Nat) (data : List Byte) : List Byte :=
  answerBody status data ++ [crc8 (answerBody status data)]

/-- The port takes a command frame: the part acts, SEL is low and no frame of this select period has been judged
(11 R160). -/
def State.takesFrame (s : State) : Bool := s.alive && s.serial == .receiving

/-- The port answers the frame; `popping` marks an answer that carries the head notice (11 R162, R170). -/
def State.reply (s : State) (status : Nat) (data : List Byte) (popping : Bool) : State :=
  { s with serial := .answering (answerFrame status data) popping }

/-- The refusal of a frame of a known command with a good CRC, by checks 1 and 3 to 6 of R161 in order; the first
that applies decides. `none`: the command is accepted. -/
def frameRefusal (params : Nat) (valid busy wrongMode conflict : Bool) : Option Nat :=
  if Config.maxParams < params then some statusBadFrame
  else if !valid then some statusInvalid
  else if busy then some statusBusy
  else if wrongMode then some statusWrongMode
  else if conflict then some statusSealedConflict
  else none

/-- One exchange: a frame that is no frame is refused by name (log 19), a frame outside a select period, or
a second one in it, is not taken (11 R160), a refused frame is answered and changes nothing else, an accepted one takes effect (11 R161). -/
def State.exchange (s : State) (params : Nat) (refused : Option Nat) (accepted : State) :
    Host.Outcome State Fault Refusal :=
  if params ≤ 255 then
    (if s.takesFrame then
      (match refused with
        | some status => .next (s.reply status [] false)
        | none => .next accepted.settle)
    else .next s)
  else .refused .illFormed

/-- A short command taken in every mode, with parameters that must be valid. -/
def anyMode (params : Nat) (valid : Bool) : Option Nat := frameRefusal params valid false false false

/-- The part is in MOUNTING. -/
def State.mounting (s : State) : Bool := s.mode == .mounting

/-- The long-command slot holds a pending command. -/
def State.longBusy (s : State) : Bool := s.longCmd.isSome

/-- The mode is not DRAINED with MAINTENANCE in the drain cause set (11 Table 11.1). -/
def State.notQuiesced (s : State) : Bool := !(s.mode == .drained && s.causes.maintenance)

/-! ### Parameters (11 R166) -/

/-- Change the working configuration. -/
def State.setCfg (s : State) (f : WorkCfg → WorkCfg) : State := { s with cfg := f s.cfg }

/-- The refusal of a SET_PARAM frame: the parameter number stands before the value (12 Table 12.4). -/
def State.paramRefusal (s : State) (ok : Nat → Bool) (v : List Byte) : Option Nat :=
  frameRefusal (v.length + 1) (paramValue ok v).isSome false s.mounting false

/-- The patrol interval changes: the timer is stopped, or started again in RUN (08 R129). -/
def State.newInterval (s : State) : State :=
  if s.cfg.patrolInterval = 0 then { s with timer := none }
  else if s.mode = .run then s.startTimer
  else s

/-- A FREE page meets a lowered wear limit: it leaves its free list and is withdrawn (01 R15). -/
def State.retireFree (s : State) (p : PPage) : State :=
  ((s.modLane p.lane (fun x => { x with freeList := x.freeList.erase p.index })).retire p).give
    (retiredNotice p none causeLimit)

/-- The FREE pages of a lane at or above the wear limit, from the tail of its list toward the head (01 R15). -/
def State.overLimit (s : State) (l : LaneId) : List PPage :=
  ((s.lane l).freeList.reverse.filter (fun i =>
    decide (s.cfg.wearLimit ≤ (s.page { lane := l, index := i }).wear))).map (fun i => { lane := l, index := i })

/-- The wear limit changes; a lower one retires FREE pages, lane A first, then the space state is recomputed
(01 R15). -/
def State.newWearLimit (s : State) (v : Nat) : State :=
  let t := s.setCfg (fun c => { c with wearLimit := v })
  if v < s.cfg.wearLimit then
    (((t.overLimit .a ++ t.overLimit .b).foldl State.retireFree t).recompute).exhaust
  else t

/-- The reserve floor changes and the space state is recomputed (01 R18). -/
def State.newFloor (s : State) (v : Nat) : State :=
  ((s.setCfg (fun c => { c with reserveFloor := v })).recompute).exhaust

/-! ### Windows (04 R71, R72) -/

/-- Replace a window. -/
def State.setWindow (s : State) (n : Nat) (w : Window) : State :=
  s.setCfg (fun c => { c with windows := c.windows.set n w })

/-- The window is SEALED. -/
def State.windowSealed (s : State) (n : Nat) : Bool :=
  (s.cfg.windows[n]?).any (fun w => w.protection == .sealed)

/-- The window becomes SEALED; its range and commit mode stay (04 R72). -/
def State.sealWindow (s : State) (n : Nat) : State :=
  s.setCfg (fun c => { c with windows := c.windows.modify n (fun w => { w with protection := .sealed }) })

/-! ### Fault summary (11 R171) -/

/-- The flags whose standing condition holds (11 R171). -/
def State.standing (s : State) : FaultFlags :=
  { noFaults with
    laneA := !s.laneA.online
    laneB := s.geometry.twoLanes && !s.laneB.online
    spaceLow := s.space == .low
    spaceExhausted := s.space == .exhausted }

/-- CLEAR_FAULTS: the flags and the dropped count are cleared, the standing flags are set again (11 R171). -/
def State.clearFaults (s : State) : State := { s with faults := s.standing, dropped := 0 }

/-! ### Long commands (11 R163 to R165) -/

/-- A long command enters the slot and its frame is answered ACCEPTED (11 R163). -/
def State.accept (s : State) (c : LongCmd) : State :=
  { (s.reply statusAccepted [] false) with longCmd := some c }

/-- The RECORD_PROGRAM claim of a long command; a claim on an OFFLINE lane A is answered at once (11 R164). -/
def State.postRecord (s : State) : State :=
  if s.laneA.online then s.post .a .recordProgram else s.finishLong resultLaneOffline none

/-- The flush mark of every slot that is not FREE (02 R36). -/
def State.markFlush (s : State) : State :=
  { s with slots := s.slots.map (fun o => o.map (fun sl => { sl with flushMark := true })) }

/-- FLUSH: every OPEN slot is sealed, every slot that is not FREE is marked, and with none the command is complete
(02 R36). -/
def State.startFlush (s : State) : State :=
  let t := s.sealAll.markFlush
  if t.allFree then t.finishLong resultOk none else t

/-- QUIESCE: MAINTENANCE joins the drain cause set; in DRAINED the command is complete (10 R158). -/
def State.startQuiesce (s : State) : State :=
  (s.setCauses { s.causes with maintenance := true }).quiesceCheck

/-- RESUME waits for no command that changes the mode or the map (10 R159). -/
def State.resumeBusy (s : State) : Bool :=
  match s.longCmd with
  | some .quiesce => true
  | some .format => true
  | some (.setCapacity _) => true
  | _ => false

end Sys2Proof.Machine
end

