-- ==== Sys2Proof/Machine/Frames.lean ====
section
/-! DEFINITION. The select period and the frames that reach no command (11 R160 to R162). -/

namespace Sys2Proof.Machine

/-- The status of a frame whose code names no command, or of a SET_PARAM frame that names no parameter
(11 R161, R166, 12 Table 12.4; log 16). `none`: the code and the parameters name a command of its own. -/
def unknownStatus (code : Byte) (ps : List Byte) : Option Nat :=
  match frameCommand code ps with
  | .unknownCommand _ _ =>
    if Config.maxParams < ps.length then some statusBadFrame
    else if code = 0x09#8 then some statusInvalid
    else some statusUnknown
  | _ => none

/-- BAD_FRAME (11 R160, R161): a whole frame whose length byte is above 16 or whose CRC-8 fails. -/
def execBadFrame (frame : List Byte) (s : State) : Host.Outcome State Fault Refusal :=
  if frameWhole frame then
    (if s.takesFrame && frameBad frame then .next (s.reply statusBadFrame [] false) else .next s)
  else .refused .illFormed

/-- UNKNOWN_COMMAND (11 R161). -/
def execUnknownCommand (code : Byte) (ps : List Byte) (s : State) : Host.Outcome State Fault Refusal :=
  match unknownStatus code ps with
  | some status => s.exchange ps.length (some status) s
  | none => if ps.length ≤ 255 then .next s else .refused .illFormed

/-- SELECT_START: SEL falls and a select period begins with no frame in progress; while RESET is asserted the port takes
no frame in it (11 R160; `State.takesFrame`), and it takes one once RESET is deasserted within it (log 40). -/
def execSelectStart (s : State) : Host.Outcome State Fault Refusal :=
  if s.powered && s.serial == .idle then .next { s with serial := .receiving } else .next s

/-- SELECT_END: a partial frame is discarded and the rest of an answer is abandoned (11 R161, R162). -/
def execSelectEnd (s : State) : Host.Outcome State Fault Refusal := .next { s with serial := .idle }

end Sys2Proof.Machine
end

