-- ==== Sys2Proof/Machine/Grants.lean ====
section
/-! DEFINITION. The grants of the lane arbiters (06 R100): at its grant a claimant decides what its operation is. A
grant command names the kind of claim; it is the event only while the arbiter would grant such a claim (log 2). -/

namespace Sys2Proof.Machine

/-! ### The shared operations -/

/-- The host port resolves a page again as its claim is granted (03 R60, R62). -/
def State.regrantPage (s : State) (l : LaneId) (second ready : Bool) (rp : ReadPage) : State :=
  if s.cfg.capacity ≤ rp.page then s.setProgress second (.failed .range)
  else
    match s.resolve rp.page rp.off rp.len with
    | .noSource => s.setProgress second (.failed .laneOffline)
    | .whole bs => s.setProgress second (.taken bs none)
    | .copy p q got =>
      if p.lane = l then
        (s.startRead l (.host second) rp.page p.index q ready).setProgress second (.granted l got)
      else (s.post p.lane (.hostRead second)).setProgress second (.waiting p.lane)

/-- A HOST_READ is granted (03 R60). -/
def State.grantHostRead (s : State) (l : LaneId) (second ready : Bool) : State :=
  match s.readPage second with
  | none => s
  | some rp => s.regrantPage l second ready rp

/-- A FILL_READ is granted: the fill source is resolved again (02 R39). -/
def State.grantFillRead (s : State) (l : LaneId) (k : Nat) (ready : Bool) : State :=
  match s.slot k with
  | none => s
  | some sl =>
    if sl.full then s.completeFill k erasedImage 0#8
    else
      match s.fillSource sl with
      | .older t => s.completeFill k t.image t.poison
      | .copy p q =>
        if p.lane = l then s.startRead l (.fill k) sl.page p.index q ready else s.post p.lane (.fillRead k)
      | .erased => s.completeFill k erasedImage 0#8
      | .none => s.fillWithoutSource k

/-- A COMMIT is granted: the queue is taken at most once for each slot it holds (05 R79). -/
def State.grantCommit (s : State) (l : LaneId) (ready : Bool) : State :=
  s.commitSelect l ready (s.commitQueue.length + 1)

/-- A MARK is granted: the head of the mark list is programmed (06 R109). -/
def State.grantMark (s : State) (l : LaneId) (ready : Bool) : State :=
  match (s.lane l).markList with
  | [] => s
  | i :: _ =>
    let t := s.modLane l (fun x => { x with op := some (.mark i []), awaitReady := true })
    if ready then t.startMark l i else t

/-! ### The commands -/

/-- HOST_READ_GRANT (03 R60, 06 R100). -/
def execHostReadGrant (l : LaneId) (ready : Bool) (s : State) : Host.Outcome State Fault Refusal :=
  match s.arbiter l with
  | some (.hostRead b) => .next ((s.grant l (.hostRead b) ready).grantHostRead l b ready).settle
  | _ => .next s

/-- FILL_READ_GRANT (02 R39, 06 R100). -/
def execFillReadGrant (l : LaneId) (ready : Bool) (s : State) : Host.Outcome State Fault Refusal :=
  match s.arbiter l with
  | some (.fillRead k) => .next ((s.grant l (.fillRead k) ready).grantFillRead l k ready).settle
  | _ => .next s

/-- RECORD_PROGRAM_GRANT (11 R164). -/
def execRecordProgramGrant (ready : Bool) (s : State) : Host.Outcome State Fault Refusal :=
  match s.arbiter .a with
  | some .recordProgram => .next ((s.grant .a .recordProgram ready).grantRecord ready).settle
  | _ => .next s

/-- COMMIT_GRANT (05 R79). -/
def execCommitGrant (l : LaneId) (ready : Bool) (s : State) : Host.Outcome State Fault Refusal :=
  match s.arbiter l with
  | some .commit => .next ((s.grant l .commit ready).grantCommit l ready).settle
  | _ => .next s

/-- RELOCATION_READ_GRANT (07 R124). -/
def execRelocationReadGrant (l : LaneId) (ready : Bool) (s : State) : Host.Outcome State Fault Refusal :=
  match s.arbiter l with
  | some .relocationRead => .next ((s.grant l .relocationRead ready).relocationGrant l ready).settle
  | _ => .next s

/-- MARK_GRANT (06 R109). -/
def execMarkGrant (l : LaneId) (ready : Bool) (s : State) : Host.Outcome State Fault Refusal :=
  match s.arbiter l with
  | some .mark => .next ((s.grant l .mark ready).grantMark l ready).settle
  | _ => .next s

/-- PATROL_READ_GRANT (08 R131). -/
def execPatrolReadGrant (l : LaneId) (ready : Bool) (s : State) : Host.Outcome State Fault Refusal :=
  match s.arbiter l with
  | some .patrolRead => .next ((s.grant l .patrolRead ready).patrolGrant l ready).settle
  | _ => .next s

end Sys2Proof.Machine
end

