-- ==== Sys2Proof/Machine/HostCommands.lean ====
section
/-! DEFINITION. The two requests of the host (chapter 3). A request waits on the link until the port takes it
(03 R48, R50; log 9), so its meaning is to join the link and to let the port take what it can. -/

namespace Sys2Proof.Machine

/-- The host presents a request (03 R48). -/
def State.present (s : State) (r : HostRequest) : State := { s with link := s.link ++ [r] }

/-- HOST_WRITE (03 R48, R51). -/
def execHostWrite (addr : Nat) (data : List Byte) (s : State) : Host.Outcome State Fault Refusal :=
  if 1 ≤ data.length ∧ data.length ≤ Config.dataBytes then
    (if s.powered then .next (s.present (.write addr data)).settle else .next s)
  else .refused .illFormed

/-- HOST_READ (03 R48, R58). -/
def execHostRead (addr len : Nat) (s : State) : Host.Outcome State Fault Refusal :=
  if 1 ≤ len ∧ len ≤ Config.dataBytes then
    (if s.powered then .next (s.present (.read addr len)).settle else .next s)
  else .refused .illFormed

end Sys2Proof.Machine
end

