-- ==== Sys2Proof/Machine/Lines.lean ====
section
/-! DEFINITION. Power, RESET, PWARN and WPROT: the commands that a line of the part or its supply sends (01 R3,
04 R67, 06 R111, 09 R138, 10 R154). -/

namespace Sys2Proof.Machine

/-! ### The shared operations -/

/-- The part with every block at its power-on value for the levels of its pins; the two ready lines, the answers
given and the queue of commands are no block's state and stay (09 R138, Table 9.1). The link is emptied: a request that
waits through a RESET is put back by the caller, one that waits as power goes or comes is lost (03 R50; log 9). -/
def State.cold (s : State) (pins : Pins) : State :=
  { coldState pins s.laneA.ready s.laneB.ready with answers := s.answers, pending := s.pending }

/-- A mount begins on the cold part (09 R138, R139). -/
def State.beginMount (s : State) : State := { s with mount := some (freshMount s.geometry) }

/-- Power comes: the pins take their levels and a mount begins (09 R138). RESET is taken as deasserted then, whatever it was
before (log 44). -/
def State.powerUp (s : State) (straps : Straps) (pwarn wprot : Bool) : State :=
  (s.cold { straps := straps, resetAsserted := false, pwarn := pwarn, wprot := wprot }).beginMount

/-- Power is gone: no block holds anything, and nothing of the part acts (log 24). -/
def State.powerDown (s : State) : State :=
  { (s.cold s.pins) with powered := false, causes := { maintenance := false, power := false } }

/-- The serial exchange at an assertion of RESET: it is abandoned until the next select period (11 R160; log 25). -/
def Serial.abandoned : Serial → Serial
  | .idle => .idle
  | .receiving => .spent
  | .answering _ _ => .spent
  | .spent => .spent

/-- A reset lane x at an assertion of RESET: its lane state stays as it was in `old`, since a lane becomes ONLINE at the start
of a mount only (06 R102, R111; log 25). -/
def Lane.offlineAs (x old : Lane) : Lane := { x with online := x.online && old.online }

/-- RESET is asserted: every block is reset but for the lane states, the straps are read, the drain cause set is what PWARN
makes it, and no mount begins yet (01 R3, 06 R111, 10 R153, R154; log 25). -/
def State.enterReset (s : State) (straps : Straps) : State :=
  let t := s.cold { s.pins with straps := straps, resetAsserted := true }
  { t with
    laneA := t.laneA.offlineAs s.laneA
    laneB := t.laneB.offlineAs s.laneB
    link := s.link
    serial := s.serial.abandoned }

/-- RESET is deasserted: the drain cause set follows PWARN and a mount begins, at which every present lane becomes ONLINE
(06 R102, R111, 09 R138, 10 R154). A select period that began
while RESET was asserted goes on, and the port takes a frame in it (11 R160; log 40). -/
def State.leaveReset (s : State) : State :=
  { (s.cold { s.pins with resetAsserted := false }).beginMount with link := s.link, serial := s.serial }

/-- The level of PWARN; mode control follows it while there is power. While RESET is asserted the mode is MOUNTING, in which
the set changes and the mode does not (10 R153, R154). -/
def State.setPwarn (s : State) (level : Bool) : State :=
  let t : State := { s with pins := { s.pins with pwarn := level } }
  if s.powered then t.setCauses { t.causes with power := level } else t

/-- The level of WPROT; the window unit samples it while the part acts (04 R67). -/
def State.setWprot (s : State) (level : Bool) : State :=
  { s with
    pins := { s.pins with wprot := level }
    wprotSampled := if s.alive then level else s.wprotSampled }

/-! ### The commands -/

/-- POWER_ON (09 R138, 01 R3). -/
def execPowerOn (straps : Straps) (pwarn wprot : Bool) (s : State) : Host.Outcome State Fault Refusal :=
  .next (s.powerUp straps pwarn wprot)

/-- POWER_LOSS: nothing survives it but the array (09 R139, 10 R156). -/
def execPowerLoss (s : State) : Host.Outcome State Fault Refusal :=
  if s.powered then .next s.powerDown else .next s

/-- RESET_ASSERTION (06 R111). -/
def execResetAssertion (straps : Straps) (s : State) : Host.Outcome State Fault Refusal :=
  if s.alive then .next (s.enterReset straps) else .next s

/-- RESET_DEASSERTION (09 R138); requests that waited on the link are then answered RETRY (03 R63). -/
def execResetDeassertion (s : State) : Host.Outcome State Fault Refusal :=
  if s.powered && s.pins.resetAsserted then .next s.leaveReset.settle else .next s

/-- PWARN_ASSERTION (10 R154). -/
def execPwarnAssertion (s : State) : Host.Outcome State Fault Refusal := .next (s.setPwarn true).settle

/-- PWARN_DEASSERTION (10 R154). -/
def execPwarnDeassertion (s : State) : Host.Outcome State Fault Refusal := .next (s.setPwarn false).settle

/-- WPROT_ASSERTION (04 R67). -/
def execWprotAssertion (s : State) : Host.Outcome State Fault Refusal := .next (s.setWprot true)

/-- WPROT_DEASSERTION (04 R67). -/
def execWprotDeassertion (s : State) : Host.Outcome State Fault Refusal := .next (s.setWprot false)

end Sys2Proof.Machine
end

