-- ==== Sys2Proof/Machine/LongCommands.lean ====
section
/-! DEFINITION. The long commands of the maintenance port (11 R163 to R165): each is answered ACCEPTED and ends with a
COMMAND_DONE notice. -/

namespace Sys2Proof.Machine

/-- SAVE_CONFIG (11 R164). -/
def execSaveConfig (ps : List Byte) (s : State) : Host.Outcome State Fault Refusal :=
  s.exchange ps.length (frameRefusal ps.length ps.isEmpty s.longBusy s.mounting false)
    (s.accept .saveConfig).postRecord

/-- SEAL_WINDOW (04 R72). -/
def execSealWindow (ps : List Byte) (s : State) : Host.Outcome State Fault Refusal :=
  match sealParam s.cfg.windows ps with
  | none => s.exchange ps.length (anyMode ps.length false) s
  | some n =>
    s.exchange ps.length (frameRefusal ps.length true s.longBusy s.mounting false)
      ((s.sealWindow n).accept (.sealWindow n)).postRecord

/-- FLUSH (02 R36). -/
def execFlush (ps : List Byte) (s : State) : Host.Outcome State Fault Refusal :=
  s.exchange ps.length (frameRefusal ps.length ps.isEmpty s.longBusy s.mounting false)
    (s.accept (.flush false)).startFlush

/-- QUIESCE (10 R158). -/
def execQuiesce (ps : List Byte) (s : State) : Host.Outcome State Fault Refusal :=
  s.exchange ps.length (frameRefusal ps.length ps.isEmpty s.longBusy s.mounting false)
    (s.accept .quiesce).startQuiesce

/-- SET_CAPACITY (11 R165). -/
def execSetCapacity (ps : List Byte) (s : State) : Host.Outcome State Fault Refusal :=
  match capacityParam s.geometry ps with
  | none => s.exchange ps.length (anyMode ps.length false) s
  | some n =>
    s.exchange ps.length (frameRefusal ps.length true s.longBusy s.notQuiesced (s.shrinkHitsSeal n))
      (s.accept (.setCapacity n)).postRecord

/-- FORMAT (11 R165). -/
def execFormat (ps : List Byte) (s : State) : Host.Outcome State Fault Refusal :=
  s.exchange ps.length (frameRefusal ps.length ps.isEmpty s.longBusy s.notQuiesced s.anySealed)
    (s.accept .format).postRecord

/-- REMOUNT (09 R138, 11 R165). -/
def execRemount (ps : List Byte) (s : State) : Host.Outcome State Fault Refusal :=
  s.exchange ps.length (frameRefusal ps.length ps.isEmpty s.longBusy s.notQuiesced false)
    (s.accept .remount).beginRemount

end Sys2Proof.Machine
end

