-- ==== Sys2Proof/Machine/MountCommands.lean ====
section
/-! DEFINITION. The events of a mount (chapter 9): a lane sees its device ready, a system page has been read, a page
of the scan has been read. -/

namespace Sys2Proof.Machine

/-- MOUNT_WAIT_READY (09 R140). -/
def execMountWaitReady (l : LaneId) (s : State) : Host.Outcome State Fault Refusal := .next (s.mountReady l).settle

/-- SYSTEM_PAGE_READ_DONE (09 R141, R142). -/
def execSystemPageReadDone (bytes : List Byte) (s : State) : Host.Outcome State Fault Refusal :=
  if bytes.length = Config.pageBytes then .next (s.systemRead bytes).settle else .fault .transferLength

/-- SCAN_READ_DONE (09 R143, R144). -/
def execScanReadDone (l : LaneId) (bytes : List Byte) (s : State) : Host.Outcome State Fault Refusal :=
  if bytes.length = Config.pageBytes then .next (s.scanRead l bytes).settle else .fault .transferLength

end Sys2Proof.Machine
end

