-- ==== Sys2Proof/Machine/ShortCommands.lean ====
section
/-! DEFINITION. The short commands of the maintenance port (11 Table 11.1). `ps` is the list of parameter bytes of the
frame; a SET_PARAM command carries the bytes after the parameter number. -/

namespace Sys2Proof.Machine

/-! ### The shared operations -/

/-- A reporting command without parameters (11 R167). -/
def State.reports (s : State) (ps : List Byte) (data : List Byte) : Host.Outcome State Fault Refusal :=
  s.exchange ps.length (anyMode ps.length ps.isEmpty) (s.reply statusOk data false)

/-- A SET_PARAM command: the value in range is handed to its effect (11 R166). -/
def State.setParam (s : State) (ok : Nat → Bool) (v : List Byte) (effect : State → Nat → State) :
    Host.Outcome State Fault Refusal :=
  s.exchange (v.length + 1) (s.paramRefusal ok v) ((effect s (beNat v)).reply statusOk [] false)

/-! ### Reports (11 R167) -/

/-- GET_STATUS (11 R167). -/
def execGetStatus (ps : List Byte) (s : State) : Host.Outcome State Fault Refusal := s.reports ps s.statusReport

/-- GET_CONFIG (11 R167). -/
def execGetConfig (ps : List Byte) (s : State) : Host.Outcome State Fault Refusal := s.reports ps s.configReport

/-- GET_POOLS (11 R167). -/
def execGetPools (ps : List Byte) (s : State) : Host.Outcome State Fault Refusal := s.reports ps s.poolsReport

/-- GET_COUNTERS (11 R167). -/
def execGetCounters (ps : List Byte) (s : State) : Host.Outcome State Fault Refusal := s.reports ps s.countersReport

/-- INSPECT_LOGICAL (11 R167). -/
def execInspectLogical (ps : List Byte) (s : State) : Host.Outcome State Fault Refusal :=
  s.exchange ps.length (anyMode ps.length (logicalParam s.cfg.capacity ps).isSome)
    (s.reply statusOk (s.logicalReport (beNat ps)) false)

/-- INSPECT_PHYSICAL (11 R167). -/
def execInspectPhysical (ps : List Byte) (s : State) : Host.Outcome State Fault Refusal :=
  s.exchange ps.length (anyMode ps.length (physicalParam s.geometry ps).isSome)
    (s.reply statusOk ((physicalParam s.geometry ps).elim [] s.physicalReport) false)

/-! ### Notices and faults (11 R170, R171) -/

/-- POP_NOTICE (11 R170). -/
def execPopNotice (ps : List Byte) (s : State) : Host.Outcome State Fault Refusal :=
  s.exchange ps.length (anyMode ps.length ps.isEmpty)
    (match s.notices with
      | [] => s.reply statusOk [] false
      | n :: _ => s.reply statusOk n.bytes true)

/-- The head notice leaves the queue as the last byte of its answer goes (11 R170); a notice given after it finds the
queue with room (log 41). -/
def State.popSent (s : State) : State :=
  match s.serial with
  | .answering _ true => { s with notices := s.notices.tail, serial := .spent }
  | _ => s

/-- POP_NOTICE_SENT (11 R170). -/
def execPopNoticeSent (s : State) : Host.Outcome State Fault Refusal := .next s.popSent.settle

/-- CLEAR_FAULTS (11 R171). -/
def execClearFaults (ps : List Byte) (s : State) : Host.Outcome State Fault Refusal :=
  s.exchange ps.length (anyMode ps.length ps.isEmpty) (s.clearFaults.reply statusOk [] false)

/-! ### SET_PARAM (11 Table 11.2) -/

/-- SET_HOLD_TIME: slots opened afterwards take it (02 R34). -/
def execSetHoldTime (v : List Byte) (s : State) : Host.Outcome State Fault Refusal :=
  s.setParam holdTimeOk v (fun t n => t.setCfg (fun c => { c with holdTime := n }))

/-- SET_PATROL_INTERVAL (08 R129). -/
def execSetPatrolInterval (v : List Byte) (s : State) : Host.Outcome State Fault Refusal :=
  s.setParam patrolIntervalOk v (fun t n => (t.setCfg (fun c => { c with patrolInterval := n })).newInterval)

/-- SET_MIGRATION_THRESHOLD (11 R166). -/
def execSetMigrationThreshold (v : List Byte) (s : State) : Host.Outcome State Fault Refusal :=
  s.setParam migThresholdOk v (fun t n => t.setCfg (fun c => { c with migThreshold := n }))

/-- SET_WEAR_LIMIT (01 R15). -/
def execSetWearLimit (v : List Byte) (s : State) : Host.Outcome State Fault Refusal :=
  s.setParam wearLimitOk v State.newWearLimit

/-- SET_SOFT_LIMIT (01 R15). -/
def execSetSoftLimit (v : List Byte) (s : State) : Host.Outcome State Fault Refusal :=
  s.setParam softLimitOk v (fun t n => t.setCfg (fun c => { c with softLimit := n }))

/-- SET_RESERVE_FLOOR (01 R18). -/
def execSetReserveFloor (v : List Byte) (s : State) : Host.Outcome State Fault Refusal :=
  s.setParam reserveFloorOk v State.newFloor

/-- SET_PROGRAM_TIME_LIMIT (06 R98). -/
def execSetProgramTimeLimit (v : List Byte) (s : State) : Host.Outcome State Fault Refusal :=
  s.setParam progLimitOk v (fun t n => t.setCfg (fun c => { c with progLimit := n }))

/-- SET_ATTENTION_MASK: ATTN is judged anew as the step settles (11 R173). -/
def execSetAttentionMask (v : List Byte) (s : State) : Host.Outcome State Fault Refusal :=
  s.setParam attnMaskOk v (fun t n => t.setCfg (fun c => { c with attnMask := BitVec.ofNat 9 n }))

/-! ### SET_WINDOW and RESUME -/

/-- SET_WINDOW (04 R71). -/
def execSetWindow (ps : List Byte) (s : State) : Host.Outcome State Fault Refusal :=
  match windowParams s.cfg.capacity ps with
  | none => s.exchange ps.length (anyMode ps.length false) s
  | some (n, w) =>
    s.exchange ps.length (frameRefusal ps.length true false s.mounting (s.windowSealed n))
      ((s.setWindow n w).reply statusOk [] false)

/-- RESUME (10 R159). -/
def execResume (ps : List Byte) (s : State) : Host.Outcome State Fault Refusal :=
  s.exchange ps.length (frameRefusal ps.length ps.isEmpty s.resumeBusy false false)
    ((s.setCauses { s.causes with maintenance := false }).reply statusOk [] false)

end Sys2Proof.Machine
end

