-- ==== Sys2Proof/Machine/Timers.lean ====
section
/-! DEFINITION. The part's own timers and the observation of a ready line: hold deadlines (02 R34), the patrol
interval (08 R129, R130), and the limits on a lane's operations (06 R97, R98). -/

namespace Sys2Proof.Machine

/-! ### The shared operations -/

/-- The interval timer expires: it is started again and the search is made (08 R129, R130). -/
def State.patrolExpiry (s : State) : State := s.startTimer.patrolSearch

/-- The page of a PAGE READ the mount itself has under way on a lane: a system page in RECORD, a data page in SCAN
(09 R141, R143). -/
def Mount.readUnderWay (m : Mount) (l : LaneId) : Option Nat :=
  match m.phase, l with
  | .record, .a => some m.sysPage
  | .scan, _ => (m.scan l).reading
  | _, _ => none

/-- The page of a PAGE READ under way on a lane, in service or in a mount. -/
def State.readUnderWay (s : State) (l : LaneId) : Option Nat :=
  match (s.lane l).readUnderWay with
  | some i => some i
  | none => if (s.lane l).online then s.mount.bind (·.readUnderWay l) else none

/-- A lane waits for ready: the page of the operation that waits, or no page in the start-up wait of a mount
(06 R97, 09 R140). The reads of phases RECORD and SCAN do not wait for it (09 R143; log 43). -/
def State.readyWait (s : State) (l : LaneId) : Option (Option Nat) :=
  if (s.lane l).awaitReady then (s.lane l).op.map (fun o => some o.index)
  else
    match s.mount with
    | some m => if m.phase = .wait ∧ (m.scan l).waiting = true ∧ (s.lane l).op = none then some none else none
    | none => none

/-- A lane goes OFFLINE, in service or in a mount (06 R103, R112). -/
def State.goOffline (s : State) (l : LaneId) (page : Option Nat) (cause : Nat) : State :=
  if s.mode = .mounting then s.mountLose l page cause else s.loseLane l page cause

/-- Ready comes: the line is active and the waiting operation is issued (06 R97). -/
def State.readyComes (s : State) (l : LaneId) : State := (s.modLane l (fun x => { x with ready := true })).issue l

/-! ### The commands -/

/-- HOLD_TIMER_EXPIRY (02 R34). -/
def execHoldTimerExpiry (k : Nat) (s : State) : Host.Outcome State Fault Refusal :=
  if k < Config.slotCount then
    (if s.alive then .next (s.seal k).settle else .next s)
  else .refused .illFormed

/-- PATROL_TIMER_EXPIRY (08 R129, R130). -/
def execPatrolTimerExpiry (s : State) : Host.Outcome State Fault Refusal :=
  if s.alive && s.timer.isSome then .next s.patrolExpiry.settle else .next s

/-- READ_TIMEOUT (06 R98). -/
def execReadTimeout (l : LaneId) (s : State) : Host.Outcome State Fault Refusal :=
  match s.readUnderWay l with
  | some i => .next (s.goOffline l (some i) causeReadTimeout).settle
  | none => .next s

/-- PROGRAM_TIMEOUT (06 R98). -/
def execProgramTimeout (l : LaneId) (s : State) : Host.Outcome State Fault Refusal :=
  match (s.lane l).programUnderWay with
  | some i => .next (s.goOffline l (some i) causeProgramTimeout).settle
  | none => .next s

/-- READY_TIMEOUT (06 R97, 09 R140). -/
def execReadyTimeout (l : LaneId) (s : State) : Host.Outcome State Fault Refusal :=
  match s.readyWait l with
  | some page => .next (s.goOffline l page causeReadyTimeout).settle
  | none => .next s

/-- READY_SEEN (06 R97). -/
def execReadySeen (l : LaneId) (s : State) : Host.Outcome State Fault Refusal :=
  if (s.lane l).awaitReady && (s.lane l).op.isSome then .next (s.readyComes l).settle else .next s

end Sys2Proof.Machine
end

