-- ==== Sys2Proof/Machine/Dispatch.lean ====
section
/-! DEFINITION. The meaning of every command: one arm for each row of spec/opcode_table.json. -/

namespace Sys2Proof.Machine

/-- The effect of a command on everything but the queue. -/
def exec (i : Instr) (s : State) : Host.Outcome State Fault Refusal :=
  match i with
  | .powerOn straps pwarn wprot => Sys2Proof.Machine.execPowerOn straps pwarn wprot s
  | .resetAssertion straps => Sys2Proof.Machine.execResetAssertion straps s
  | .resetDeassertion => Sys2Proof.Machine.execResetDeassertion s
  | .pwarnAssertion => Sys2Proof.Machine.execPwarnAssertion s
  | .pwarnDeassertion => Sys2Proof.Machine.execPwarnDeassertion s
  | .wprotAssertion => Sys2Proof.Machine.execWprotAssertion s
  | .wprotDeassertion => Sys2Proof.Machine.execWprotDeassertion s
  | .hostWrite addr data => Sys2Proof.Machine.execHostWrite addr data s
  | .hostRead addr len => Sys2Proof.Machine.execHostRead addr len s
  | .holdTimerExpiry slot => Sys2Proof.Machine.execHoldTimerExpiry slot s
  | .patrolTimerExpiry => Sys2Proof.Machine.execPatrolTimerExpiry s
  | .readTimeout lane => Sys2Proof.Machine.execReadTimeout lane s
  | .programTimeout lane => Sys2Proof.Machine.execProgramTimeout lane s
  | .readyTimeout lane => Sys2Proof.Machine.execReadyTimeout lane s
  | .readySeen lane => Sys2Proof.Machine.execReadySeen lane s
  | .hostReadGrant lane ready => Sys2Proof.Machine.execHostReadGrant lane ready s
  | .fillReadGrant lane ready => Sys2Proof.Machine.execFillReadGrant lane ready s
  | .recordProgramGrant ready => Sys2Proof.Machine.execRecordProgramGrant ready s
  | .commitGrant lane ready => Sys2Proof.Machine.execCommitGrant lane ready s
  | .relocationReadGrant lane ready => Sys2Proof.Machine.execRelocationReadGrant lane ready s
  | .markGrant lane ready => Sys2Proof.Machine.execMarkGrant lane ready s
  | .patrolReadGrant lane ready => Sys2Proof.Machine.execPatrolReadGrant lane ready s
  | .hostReadDone lane bytes => Sys2Proof.Machine.execHostReadDone lane bytes s
  | .fillReadDone lane bytes => Sys2Proof.Machine.execFillReadDone lane bytes s
  | .relocationReadDone lane bytes => Sys2Proof.Machine.execRelocationReadDone lane bytes s
  | .patrolReadDone lane bytes => Sys2Proof.Machine.execPatrolReadDone lane bytes s
  | .commitProgramDone lane => Sys2Proof.Machine.execCommitProgramDone lane s
  | .commitVerifyDone lane bytes => Sys2Proof.Machine.execCommitVerifyDone lane bytes s
  | .recordProgramDone => Sys2Proof.Machine.execRecordProgramDone s
  | .recordReadBackDone bytes => Sys2Proof.Machine.execRecordReadBackDone bytes s
  | .markProgramDone lane => Sys2Proof.Machine.execMarkProgramDone lane s
  | .mountWaitReady lane => Sys2Proof.Machine.execMountWaitReady lane s
  | .systemPageReadDone bytes => Sys2Proof.Machine.execSystemPageReadDone bytes s
  | .scanReadDone lane bytes => Sys2Proof.Machine.execScanReadDone lane bytes s
  | .getStatus ps => Sys2Proof.Machine.execGetStatus ps s
  | .getConfig ps => Sys2Proof.Machine.execGetConfig ps s
  | .getPools ps => Sys2Proof.Machine.execGetPools ps s
  | .getCounters ps => Sys2Proof.Machine.execGetCounters ps s
  | .inspectLogical ps => Sys2Proof.Machine.execInspectLogical ps s
  | .inspectPhysical ps => Sys2Proof.Machine.execInspectPhysical ps s
  | .popNotice ps => Sys2Proof.Machine.execPopNotice ps s
  | .popNoticeSent => Sys2Proof.Machine.execPopNoticeSent s
  | .clearFaults ps => Sys2Proof.Machine.execClearFaults ps s
  | .setHoldTime value => Sys2Proof.Machine.execSetHoldTime value s
  | .setPatrolInterval value => Sys2Proof.Machine.execSetPatrolInterval value s
  | .setMigrationThreshold value => Sys2Proof.Machine.execSetMigrationThreshold value s
  | .setWearLimit value => Sys2Proof.Machine.execSetWearLimit value s
  | .setSoftLimit value => Sys2Proof.Machine.execSetSoftLimit value s
  | .setReserveFloor value => Sys2Proof.Machine.execSetReserveFloor value s
  | .setProgramTimeLimit value => Sys2Proof.Machine.execSetProgramTimeLimit value s
  | .setAttentionMask value => Sys2Proof.Machine.execSetAttentionMask value s
  | .setWindow ps => Sys2Proof.Machine.execSetWindow ps s
  | .resume ps => Sys2Proof.Machine.execResume ps s
  | .saveConfig ps => Sys2Proof.Machine.execSaveConfig ps s
  | .sealWindow ps => Sys2Proof.Machine.execSealWindow ps s
  | .flush ps => Sys2Proof.Machine.execFlush ps s
  | .quiesce ps => Sys2Proof.Machine.execQuiesce ps s
  | .setCapacity ps => Sys2Proof.Machine.execSetCapacity ps s
  | .format ps => Sys2Proof.Machine.execFormat ps s
  | .remount ps => Sys2Proof.Machine.execRemount ps s
  | .badFrame frame => Sys2Proof.Machine.execBadFrame frame s
  | .unknownCommand code ps => Sys2Proof.Machine.execUnknownCommand code ps s
  | .selectEnd => Sys2Proof.Machine.execSelectEnd s
  | .powerLoss => Sys2Proof.Machine.execPowerLoss s
  | .selectStart => Sys2Proof.Machine.execSelectStart s

end Sys2Proof.Machine
end

