-- ==== Sys2Proof/Machine/SerialLine.lean ====
section
/-! DEFINITION. The serial line of the maintenance port below whole frames (11 R160): SPI mode 0, each byte most
significant bit first, the frame that a select period carries, the commands that a period stands for, and what the bridge
drives on SDO. -/

namespace Sys2Proof.Machine

/-! ### Bits and bytes -/

/-- Bytes in the order their bits are shifted: each most significant bit first (11 R160). -/
def lineBits (bs : List Byte) : List Bool := bs.flatMap msbFirst

/-- The byte that bits spell, the first the most significant. -/
def byteOfBits (bits : List Bool) : Byte := BitVec.ofNat 8 (bits.foldl (fun n b => 2 * n + b.toNat) 0)

/-- The bytes shifted whole; bits of a byte that is not complete spell none yet. -/
def bytesOfBits : List Bool → List Byte
  | b7 :: b6 :: b5 :: b4 :: b3 :: b2 :: b1 :: b0 :: rest =>
    byteOfBits [b7, b6, b5, b4, b3, b2, b1, b0] :: bytesOfBits rest
  | _ => []

/-! ### SPI mode 0 -/

/-- The levels the controller drives within a select period. -/
structure LineLevels where
  sclk : Bool
  sdi : Bool
deriving DecidableEq, Repr

/-- The bits sampled: SDI at each rising edge of SCLK, the level of SCLK before the first being given. -/
def sampledBits : Bool → List LineLevels → List Bool
  | _, [] => []
  | before, x :: xs => if !before && x.sclk then x.sdi :: sampledBits x.sclk xs else sampledBits x.sclk xs

/-- The levels by which a controller shifts bits in: each changes while SCLK is low and stands while it is high. -/
def clockedLevels (bits : List Bool) : List LineLevels :=
  bits.flatMap (fun b => [{ sclk := false, sdi := b }, { sclk := true, sdi := b }])

/-- The bytes shifted in within a select period; SCLK is low as SEL falls. -/
def shiftedIn (levels : List LineLevels) : List Byte := bytesOfBits (sampledBits false levels)

/-! ### One select period, one exchange -/

/-- The command frame of a select period: as long as its length byte says; bytes shifted in after it are ignored. None
where SEL rises before its CRC byte has been received (11 R160, R161). -/
def periodFrame : List Byte → Option (List Byte)
  | code :: len :: rest =>
    if len.toNat + 1 ≤ rest.length then some (code :: len :: rest.take (len.toNat + 1)) else none
  | _ => none

/-- The command a select period carries, if its frame came whole. -/
def periodCommand (levels : List LineLevels) : Option Instr := (periodFrame (shiftedIn levels)).bind decodeFrame

/-- The commands a select period stands for: the fall of SEL, its frame, the rise of SEL. Where the period goes on until
the last byte of a popping answer is sent, POP_NOTICE_SENT stands before the rise (11 R170). -/
def periodCommands (levels : List LineLevels) (popSent : Bool) : List Instr :=
  [.selectStart] ++ (periodCommand levels).toList ++ (if popSent then [.popNoticeSent] else []) ++ [.selectEnd]

/-! ### SDO -/

/-- Byte n after the command frame as the bridge drives it, its answer becoming ready after `ready` such bytes: 0x00
before, the answer frame, 0x00 after; 0x00 where there is no answer, and while the part does not act (11 R160). -/
def State.sdo (s : State) (ready n : Nat) : Byte :=
  match s.serial with
  | .answering frame _ => if s.alive && decide (ready ≤ n) then frame.getD (n - ready) 0#8 else 0#8
  | _ => 0#8

/-- The bits the bridge shifts out over the bytes after the command frame (11 R160). -/
def State.sdoBits (s : State) (ready count : Nat) : List Bool :=
  lineBits ((List.range count).map (s.sdo ready))

/-- The level of SDO beside each level of SCLK as bits are shifted out: the next bit at each falling edge of SCLK, the level
of SCLK before the first being given (11 R160). -/
def sdoLevels : Bool → List Bool → List Bool → List Bool
  | _, _, [] => []
  | before, bits, sclk :: rest =>
    if before && !sclk then bits.tail.headD false :: sdoLevels sclk bits.tail rest
    else bits.headD false :: sdoLevels sclk bits rest

end Sys2Proof.Machine
end

