-- ==== Sys2Proof/Safety.lean ====
section
/-! DEFINITION. What a safe step is, the laws of the state that every step keeps, and the relations by which
statements say what a command leaves as it was. -/

namespace Sys2Proof.Machine

/-! ### Outcomes -/

/-- The step goes on: no fault and no refusal. -/
def goesOn (o : Host.Outcome State Fault Refusal) : Prop := ∃ t, o = .next t

/-! ### Laws of the state -/

/-- The notice queue holds at most 32 notices and the dropped count saturates (11 R168, R169). -/
def State.NoticesBounded (s : State) : Prop :=
  s.notices.length ≤ Config.noticeCapacity ∧ s.dropped ≤ Config.droppedMax

/-- The pool has sixteen slots (02 R23). -/
def State.SixteenSlots (s : State) : Prop := s.slots.length = Config.slotCount

/-- The relocation list holds at most eight entries (07 R122). -/
def State.RelocBounded (s : State) : Prop := s.relocList.length ≤ Config.relocCapacity

/-- No pass-over count is above eight (06 R101). -/
def State.PassOverBounded (s : State) : Prop :=
  s.laneA.passOver ≤ Config.passOverLimit ∧ s.laneB.passOver ≤ Config.passOverLimit

/-- Outside MOUNTING the mode is RUN exactly while the drain cause set is empty (10 R153). -/
def State.ModeFollows (s : State) : Prop := s.mode ≠ .mounting → (s.mode = .run ↔ s.causes.any = false)

/-- DRAINED is asserted exactly in mode DRAINED, and ATTN exactly under its condition (10 R153, 11 R173). -/
def State.LinesFollow (s : State) : Prop := s.drainedLine = (s.mode == .drained) ∧ s.attn = s.attnOf

/-- The geometry in force is the one the straps gave (01 R3). -/
def State.GeometryFromStraps (s : State) : Prop := s.geometry = geometryOf s.pins.straps

/-- A COMMIT claim stands on a lane exactly while the queue holds a slot eligible for it (05 R78). -/
def State.CommitClaimsFollow (s : State) : Prop :=
  ∀ l, (s.lane l).claims.contains .commit = s.commitQueue.any (s.eligible l)

/-- A MARK claim stands on a lane exactly while its four conditions hold and no mark is under way (06 R108, R109). -/
def State.MarkClaimsFollow (s : State) : Prop := ∀ l, (s.lane l).claims.contains .mark = s.wantsMark l

/-- A RELOCATION_READ claim waits only while the relocation list holds an entry, the part acts in RUN and at least five
slots are FREE; and where these allow it, with no relocation read waiting or granted, the list is empty (07 R123). -/
def State.RelocationClaimsFollow (s : State) : Prop :=
  ((∃ l, .relocationRead ∈ (s.lane l).claims) →
    s.relocList ≠ [] ∧ s.alive = true ∧ s.mode = .run ∧ 5 ≤ s.freeCount) ∧
  (s.alive = true → s.mode = .run → 5 ≤ s.freeCount →
    (∀ l, .relocationRead ∉ (s.lane l).claims ∧ (s.lane l).relocGranted = false) → s.relocList = [])

/-! ### States that statements start from or end in -/

/-- The part acts and no request waits on the link. -/
abbrev State.Quiet (s : State) : Prop := s.alive = true ∧ s.link = []

/-- The part is quiet and its maintenance port waits for the command frame of a select period (11 R160). -/
abbrev State.Listening (s : State) : Prop := s.Quiet ∧ s.serial = .receiving

/-- The record of a page as the start of a mount leaves it: the two system pages stand on lane A (01 R4, R20). -/
def initialRecord (p : PPage) : PageRec :=
  { state := if p.lane = .a ∧ p.index < 2 then .system else .free, wear := 0, soft := 0 }

/-- A lane as power-on and RESET leave it, whatever its device's ready line shows and whether or not it is ONLINE, which the
start of the mount decides (01 R20, 06 R111, R114). -/
def Lane.Cleared (x : Lane) (g : Geometry) (l : LaneId) : Prop :=
  x.pages.length = (if g.has l then g.pagesPerLane else 0) ∧ x.freeList = [] ∧ x.markList = [] ∧
    x.claims = [] ∧ x.passOver = 0 ∧ x.op = none ∧ x.awaitReady = false ∧ x.discard = false ∧ x.programs = 0

/-- Every present lane is ONLINE, as the start of every mount makes it (06 R102). -/
def State.AllOnline (s : State) : Prop := ∀ l, (s.lane l).online = s.geometry.has l

/-- Every block as power-on and RESET leave it, for the straps read (01 R3, R17, R18, R20, 02 R23, 03 R50, 05 R76,
06 R111, 07 R122, 08 R128, 09 R142, 10 R153, 11 R163, R168, R169, R171, R172). That no record is the newest and the
format base is 0 before a mount's selection is the model's choice (log 24). -/
def State.Cleared (s : State) (straps : Straps) : Prop :=
  s.geometry = { twoLanes := straps.twoLanes, size := readSize straps.size } ∧
  s.mode = .mounting ∧ s.drainedLine = false ∧ s.attn = false ∧ s.cfg = defaultCfg s.geometry ∧
  s.remap = List.replicate s.geometry.defaultCapacity .unmapped ∧ (∀ p, s.page p = initialRecord p) ∧
  s.seq = 0 ∧ s.formatBase = 0 ∧ s.newestRecord = none ∧ s.blank = false ∧ s.space = .ample ∧
  (∀ k, s.slot k = none) ∧ s.slots.length = 16 ∧ s.commitQueue = [] ∧ s.nextStamp = 0 ∧ s.port = .idle ∧
  s.relocList = [] ∧ s.cursor = 0 ∧ s.passCount = 0 ∧ s.timer = none ∧ s.patrolRead = none ∧ s.longCmd = none ∧
  s.notices = [] ∧ s.dropped = 0 ∧ s.faults = noFaults ∧ s.stats = noStats ∧
  (∀ l, (s.lane l).Cleared s.geometry l)

/-- The soft count of a page one higher, at most 255; a FREE page's stays (01 R9). -/
def State.softened (s : State) (p : PPage) : State :=
  if (s.page p).state = .free then s else s.setPage p { s.page p with soft := min ((s.page p).soft + 1) 255 }

/-! ### Frames -/

/-- A claim that its block keeps posted by a condition of the state: COMMIT, RELOCATION_READ and MARK (05 R78,
06 R108, 07 R123). -/
def Claim.kept : Claim → Bool
  | .commit => true
  | .relocationRead => true
  | .mark => true
  | _ => false

/-- The lane is as it was but for its claims of the three kept kinds and for its pass-over count, which is 0 where a
waiting COMMIT claim was withdrawn and as it was otherwise (06 R101). -/
def LaneSettled (x y : Lane) : Prop :=
  ∃ claims,
    y = { x with
          claims := claims
          passOver := if x.claims.contains .commit && !claims.contains .commit then 0 else x.passOver } ∧
      claims.filter (fun c => !c.kept) = x.claims.filter (fun c => !c.kept)

/-- The second state is the first but for what the end of every step judges anew: the claims of the three kept kinds,
with the pass-over counts; the relocation list, which may lose entries from its head, each of them stale, while a
relocation read is allowed; and the two lines, which follow mode, notices and flags. A RELOCATION_READ claim that it posts
stands on the lane of the head entry, which is not stale (05 R78, 06 R101, R108, 07 R123, 10 R153, 11 R173). -/
def Settled (s t : State) : Prop :=
  ∃ a b n,
    t = { s with laneA := a, laneB := b, relocList := s.relocList.drop n,
                 drainedLine := (s.mode == .drained), attn := s.attnOf } ∧
      LaneSettled s.laneA a ∧ LaneSettled s.laneB b ∧
      (∀ e ∈ s.relocList.take n, s.relocStale e = true) ∧ (n = 0 ∨ s.relocAllowed = true) ∧
      ((∀ l, .relocationRead ∉ (s.lane l).claims) → ∀ l, .relocationRead ∈ (t.lane l).claims →
        ∃ e, t.relocList.head? = some e ∧ e.2.lane = l ∧ s.relocStale e = false)

/-- The command answers a next state, and it is the given state but for what the end of every step judges anew. -/
def SettlesTo (o : Host.Outcome State Fault Refusal) (expected : State) : Prop :=
  ∃ t, o = .next t ∧ Settled expected t

/-- What the departure of slots from the pool can change; all else is as it was (02 R45, 05 R89, R92, R95). -/
def PoolOnly (s t : State) : Prop :=
  ∃ slots commitQueue port answers mode longCmd notices dropped faults stats,
    t = { s with slots := slots, commitQueue := commitQueue, port := port, answers := answers, mode := mode,
                 longCmd := longCmd, notices := notices, dropped := dropped, faults := faults, stats := stats }

/-! ### What an operation is -/

/-- The operation is a decoded read. -/
def Op.isRead : Op → Bool
  | .read _ _ _ _ => true
  | _ => false

/-- The record program an operation is: system page, configuration and format base. -/
def Op.recordOf : Op → Option (Nat × WorkCfg × Nat)
  | .record i _ c base _ _ => some (i, c, base)
  | _ => none

/-- The page a mark programs. -/
def Op.markPage : Op → Option Nat
  | .mark i _ => some i
  | _ => none

/-- The commit an operation is: slot, index and sequence. -/
def Op.commitOf : Op → Option (Nat × Nat × Nat)
  | .commit k _ i q _ => some (k, i, q)
  | _ => none

/-! ### Host requests -/

/-- The slot that takes a part of a write, as it stands then: its page's newest slot, where that is not in flight, with
the bytes merged; otherwise the lowest-numbered FREE slot, OPEN with those bytes (02 R27 to R30). -/
def State.takes (s : State) (pt : Part) : Option (Nat × Slot) :=
  match s.mergeTarget pt.page with
  | some r => some (r.1, r.2.merged pt)
  | none =>
    s.firstFree.map (fun k => (k,
      { phase := .opened s.cfg.holdTime, stamp := s.nextStamp, page := pt.page, origin := .host
        cells := List.replicate pt.off none ++ pt.data.map some ++ List.replicate (64 - pt.off - pt.data.length) none
        poison := 0, attempts := 0, flushMark := false, owed := false }))

/-- The pool with a part of a write placed: the slot that takes it, and the next creation stamp where one was opened. -/
def State.placing (s : State) (pt : Part) : State :=
  match s.takes pt with
  | none => s
  | some r =>
    { s with
      slots := s.slots.set r.1 (some r.2)
      nextStamp := if (s.mergeTarget pt.page).isNone then s.nextStamp + 1 else s.nextStamp }

/-- A write is answered DONE and counted, as a merged one where some part was merged (03 R55, 02 R27). -/
def State.wrote (s : State) (merged : Bool) : State :=
  { s with
    answers := s.answers ++ [.done]
    stats :=
      { s.stats with
        hostWrites := s.stats.hostWrites + 1
        merged := if merged then s.stats.merged + 1 else s.stats.merged } }

/-- The bytes of a page that need no lane: slots give them all, or the page is UNMAPPED and erased bytes stand for those
no slot gives (03 R59). -/
def State.bytesAtHand (s : State) (page off len : Nat) : Option (List ReadByte) :=
  if (List.range len).all (fun i => (s.slotByte page (off + i)).isSome) || s.entry page == .unmapped then
    some ((List.range len).map (fun i => (s.slotByte page (off + i)).getD { byte := 0xFF#8, poisoned := false }))
  else none

/-- The ONLINE lane that holds the page's copy (03 R59). -/
def State.copyLane (s : State) (page : Nat) : Option LaneId :=
  match s.entry page with
  | .mapped p _ => if (s.lane p.lane).online then some p.lane else none
  | _ => none

/-- The answer that carries bytes: DATA, or FAULT UNCORRECTABLE where one is poisoned (03 R61). -/
def answerOf (bytes : List ReadByte) : HostAnswer :=
  if bytes.any (·.poisoned) then .fault .uncorrectable else .data (bytes.map (·.byte))

/-! ### Seals -/

/-- The sealing of every OPEN slot, each slot marked as a FLUSH does or not at all (02 R32, R36 to R38). Outside the
exhaustion condition every slot is still there: a slot that was not OPEN as it was, an OPEN one FILLING or SEALED with its
page, stamp, origin and host bytes. A full one is SEALED as it stood; one that is the only OPEN slot of its page takes its
fill at once from an older complete slot, from erased bytes or without a source, or waits FILLING for its FILL_READ; and
those SEALED join the tail of the queue in ascending order of creation stamp. Under the exhaustion condition a slot that
joins the queue is dropped with it (05 R92), and no other slot changes. -/
def State.PoolSealed (t s : State) (mark : Slot → Slot) : Prop :=
  (∀ k, s.slot k = none → t.slot k = none) ∧
  (s.exhaustion = false →
    (∀ k sl, s.slot k = some sl →
      (sl.isOpen = false → t.slot k = some (mark sl)) ∧
      (sl.isOpen = true →
        (∃ u, t.slot k = some (mark u) ∧ u.page = sl.page ∧ u.stamp = sl.stamp ∧ u.origin = sl.origin ∧
          (u.phase = .filling ∨ u.phase = .sealed) ∧
          ((∀ j x, s.slot j = some x → x.cells.length = 64) →
            ∀ (i : Nat) (b : Byte), sl.cells[i]? = some (some b) → u.cells[i]? = some (some b))) ∧
        (sl.full = true → t.slot k = some (mark { sl with phase := .sealed })) ∧
        (sl.full = false → (∀ j x, j ≠ k → s.slot j = some x → x.isOpen = true → x.page ≠ sl.page) →
          (∀ older, s.olderComplete sl = some older →
            t.slot k = some (mark (sl.filled older.image older.poison))) ∧
          (s.olderComplete sl = none → s.entry sl.page = .unmapped →
            t.slot k = some (mark (sl.filled (List.replicate 64 0xFF#8) 0#8))) ∧
          (s.olderComplete sl = none → ∀ l, s.copyLane sl.page = some l →
            t.slot k = some (mark { sl with phase := .filling }) ∧ .fillRead k ∈ (t.lane l).claims) ∧
          (s.olderComplete sl = none → s.entry sl.page ≠ .unmapped → s.copyLane sl.page = none →
            t.slot k = some (mark (sl.filled (List.replicate 64 0xFF#8) 0xFF#8)))))) ∧
    (∃ joined, t.commitQueue = s.commitQueue ++ joined ∧ joined.Nodup ∧
      (∀ k, k ∈ joined ↔
        (s.slot k).any Slot.isOpen = true ∧ (t.slot k).any (fun sl => sl.phase == .sealed) = true) ∧
      joined.Pairwise (fun j k => ∀ x, s.slot j = some x → ∀ y, s.slot k = some y → x.stamp ≤ y.stamp))) ∧
  (s.exhaustion = true →
    (t.commitQueue = [] ∨ t.commitQueue = s.commitQueue) ∧
    ∀ k sl, s.slot k = some sl →
      (sl.isOpen = false → k ∉ s.commitQueue → t.slot k = some (mark sl)) ∧
      (sl.isOpen = true → t.slot k = none ∨ t.slot k = some (mark { sl with phase := .filling })))

/-! ### Released copies -/

/-- The record's state after a release: RETIRED at a limit, FREE otherwise (01 R12). -/
def State.released (s : State) (r : PageRec) : PageRec :=
  { r with state := if s.cfg.wearLimit ≤ r.wear ∨ s.cfg.softLimit ≤ r.soft then .retired else .free }

/-- The page stands where a release puts it: on its lane's mark list when retired, in its free list otherwise
(01 R10, R12, 06 R107). -/
def State.Shelved (t : State) (p : PPage) : Prop :=
  ((t.page p).state = .retired → p.index ∈ (t.lane p.lane).markList) ∧
    ((t.page p).state = .free → p.index ∈ (t.lane p.lane).freeList)

/-- Every copy of a removed entry is released: a page that is the copy of one removed entry, FREE or RETIRED by its
counts; a page that is the copy of none, as it was (01 R12, R21, R22). -/
def State.Released (t s : State) (removed : List Nat) : Prop :=
  (∀ n ∈ removed, ∀ p q, s.entry n = .mapped p q → p.index < (s.lane p.lane).pages.length →
    (∀ j ∈ removed, j ≠ n → s.mappedAt j p = false) → t.page p = s.released (s.page p) ∧ t.Shelved p) ∧
  (∀ p, (∀ n ∈ removed, s.mappedAt n p = false) → t.page p = s.page p)

/-- The SUSPECT pages of lane l whose CRC failed hold the wear given and soft count 0, but page p, and every other page
is as it was (09 R145). -/
def State.SuspectsWorn (t s : State) (m : Mount) (l : LaneId) (wear : Nat) (p : Option PPage) : Prop :=
  (∀ c ∈ m.classed, c.page.lane = l → c.cls = .suspect true → some c.page ≠ p →
    c.page.index < (s.lane l).pages.length → t.page c.page = { s.page c.page with wear := wear, soft := 0 }) ∧
  (∀ q, some q ≠ p → (∀ c ∈ m.classed, c.page = q → c.page.lane = l → c.cls ≠ .suspect true) → t.page q = s.page q)

/-! ### What a lost lane leaves -/

/-- The slot a FILL_READ serves. -/
def Claim.fillSlot : Claim → Option Nat
  | .fillRead k => some k
  | _ => none

/-- The claim whose operation holds the lane, for the reads of host port, pool and patrol unit. -/
def Op.readClaim : Op → Option Claim
  | .read (.host b) _ _ _ => some (.hostRead b)
  | .read (.fill k) _ _ _ => some (.fillRead k)
  | .read .patrol _ _ _ => some .patrolRead
  | _ => none

/-- The reads that end without data when the lane is lost: the one under way and those that wait. -/
def Lane.readsEnding (x : Lane) : List Claim := (x.op.bind Op.readClaim).toList ++ x.claims

/-- A long command that ends in a record program. -/
def LongCmd.recording : LongCmd → Bool
  | .saveConfig | .sealWindow _ | .setCapacity _ | .format => true
  | .flush _ | .quiesce | .remount => false

/-- How many pages the read in progress touches. -/
def State.readPages (s : State) : Nat :=
  match s.port with
  | .reading ps => ps.length
  | _ => 0

/-- The page of a read is being read on some lane. -/
def ReadPage.onLane (rp : ReadPage) : Bool :=
  match rp.progress with
  | .granted _ _ => true
  | _ => false

/-- The capacity a SET_CAPACITY puts in force. -/
def LongCmd.capacity : LongCmd → Option Nat
  | .setCapacity n => some n
  | _ => none

/-- The COMMAND_DONE notice of a long command: with its system page where a record program was started, and with the
capacity in force for a SET_CAPACITY (11 R163). -/
def State.doneBy (s : State) (c : LongCmd) (result : Nat) (page : Option Nat) : Notice :=
  { kind := .commandDone, lane := page.map (fun _ => .a), index := page
    logical := c.capacity.map (fun _ => s.cfg.capacity), detail := 256 * c.code + result }

/-- What the departure of slot k, by completion or by a drop, enables when no other slot leaves the pool with it: the held
answer that it owed, DRAINED for a drain whose last slot it was, the end of a FLUSH whose last marked slot it was, and the
end of a QUIESCE that reaches DRAINED (02 R36, R45, 03 R56, 10 R156, R158). -/
def State.Departed (t s : State) (k : Nat) (sl : Slot) (lost : Bool) : Prop :=
  (sl.owed = true →
    (∀ failed, s.port = .holding [k] failed →
      t.port = .idle ∧ t.answers = s.answers ++ [if failed || lost then .fault .commitFailed else .done]) ∧
    (∀ j failed, j ≠ k → s.port = .holding [k, j] failed ∨ s.port = .holding [j, k] failed →
      t.port = .holding [j] (failed || lost) ∧ t.answers = s.answers)) ∧
  ((∀ j, j ≠ k → s.slot j = none) → s.mode = .draining → s.causes.any = true →
    t.mode = .drained ∧ t.drainedLine = true) ∧
  ((∃ j, j ≠ k ∧ (s.slot j).isSome = true) ∨ s.mode ≠ .draining → t.mode = s.mode) ∧
  (sl.flushMark = true → ∀ before, s.longCmd = some (.flush before) →
    ((∀ j, j ≠ k → (s.slot j).all (fun x => !x.flushMark) = true) →
      t.longCmd = none ∧
      (t.notices.length < 32 →
        t.notices.getLast? = some (s.doneBy (.flush before) (if before || lost then 3 else 0) none))) ∧
    ((∃ j, j ≠ k ∧ (s.slot j).any (fun x => x.flushMark) = true) → t.longCmd = some (.flush (before || lost)))) ∧
  (s.longCmd = some .quiesce →
    ((∀ j, j ≠ k → s.slot j = none) → s.mode = .draining → s.causes.maintenance = true →
      t.longCmd = none ∧ (t.notices.length < 32 → t.notices.getLast? = some (s.doneBy .quiesce 0 none))) ∧
    ((∃ j, j ≠ k ∧ (s.slot j).isSome = true) → t.longCmd = some .quiesce))

/-- What the loss of lane l in service does to the commit or record program it cut short (05 R91, 06 R104): a commit's
target is released and its slot stands SEALED at the head of the queue, or is FREE where it was a MIGRATE slot; the long
command of a record program ends with LANE_OFFLINE. -/
def State.OpLost (t s : State) (l : LaneId) : Prop :=
  ∀ o, (s.lane l).op = some o →
    (∀ r, o.commitOf = some r → ∀ sl, s.slot r.1 = some sl →
      let p : PPage := { lane := l, index := r.2.1 }
      (r.2.1 < (s.lane l).pages.length →
        (t.page p).state = (s.released (s.page p)).state ∧ (t.page p).wear = (s.page p).wear ∧ t.Shelved p) ∧
      (sl.origin.targetLane.isSome = true → t.slot r.1 = none) ∧
      (sl.origin.targetLane = none → .fillRead r.1 ∉ (s.lane l).claims → t.space ≠ .exhausted →
        t.slot r.1 = some { sl with phase := .sealed } ∧ t.commitQueue.head? = some r.1)) ∧
    (∀ r, o.recordOf = some r → ∀ c, s.longCmd = some c →
      t.longCmd = none ∧
      (s.notices.length + 1 < 32 →
        t.notices[s.notices.length + 1]? =
          some (s.doneBy c 1 (if (s.lane l).awaitReady then none else some r.1))))

/-- What the loss of lane l in service does to the reads and the record program that end with it (06 R104, R105): a host
read none of whose pages is then still being read is answered FAULT LANE_OFFLINE; a fill takes no source, so that its
slot is SEALED in the queue with each codeword the host did not wholly write poisoned; a patrol read leaves its record;
the long command of a waiting record program ends with LANE_OFFLINE. -/
def State.ClaimsLost (t s : State) (l : LaneId) : Prop :=
  (∀ b, .hostRead b ∈ (s.lane l).readsEnding → ∀ rp, s.readPage b = some rp → rp.open? = true →
    (s.readPage (!b)).all (fun other => !other.onLane) = true → s.readPages ≤ 2 →
    t.port = .idle ∧ t.answers = s.answers ++ [.fault .laneOffline]) ∧
  (∀ k, .fillRead k ∈ (s.lane l).readsEnding → ∀ sl, s.slot k = some sl → sl.origin = .host →
    s.exhaustion = false → t.space ≠ .exhausted →
    t.slot k = some (sl.filled (List.replicate 64 0xFF#8) 0xFF#8) ∧ k ∈ t.commitQueue) ∧
  (.patrolRead ∈ (s.lane l).readsEnding → t.patrolRead = none) ∧
  (.recordProgram ∈ (s.lane l).claims → ∀ c, s.longCmd = some c → c.recording = true →
    t.longCmd = none ∧
    ((s.lane l).op.bind Op.recordOf = none → t.notices.length < 32 → s.doneBy c 1 none ∈ t.notices))

/-- The state after lane l went OFFLINE, against the state before: 06 R103 to R106, R112. -/
def State.LostLane (t s : State) (l : LaneId) (page : Option Nat) (cause : Nat) : Prop :=
  (t.lane l).online = false ∧ (t.lane l).op = none ∧ (t.lane l).claims = [] ∧ (t.lane l).passOver = 0 ∧
    (match l with | .a => t.faults.laneA | .b => t.faults.laneB) = true ∧
    (s.notices.length < 32 → t.notices.take (s.notices.length + 1) =
      s.notices ++ [{ kind := .laneOffline, lane := some l, index := page, logical := none, detail := cause }]) ∧
    (t.lane l.other).online = (s.lane l.other).online ∧
    (s.mode ≠ .mounting →
      t.remap = s.remap ∧ t.cfg = s.cfg ∧ t.seq = s.seq ∧ t.formatBase = s.formatBase ∧ t.space = t.spaceNow ∧
      (t.lane l.other).op = (s.lane l.other).op ∧
      ((s.lane l).claims.all (fun c => (c.fillSlot.bind s.slot).all (fun sl => sl.origin != .migrate l)) = true →
        ∀ k ∈ t.commitQueue, (t.slot k).all (fun sl => sl.origin != .migrate l) = true) ∧
      t.OpLost s l ∧ t.ClaimsLost s l)

/-! ### What a grant leaves -/

/-- The claim of a host or fill read. -/
def Claim.isForeground : Claim → Bool
  | .hostRead _ => true
  | .fillRead _ => true
  | _ => false

/-- The granted claim no longer waits and the operation, if any, holds the lane; a host or fill read counts against a
waiting COMMIT (06 R97, R100, R101). -/
def State.granted (s : State) (l : LaneId) (c : Claim) (ready : Bool) (op : Option Op) : State :=
  s.modLane l (fun x =>
    { x with
      claims := x.claims.erase c
      passOver := if c.isForeground && x.claims.contains .commit then x.passOver + 1 else x.passOver
      ready := ready
      op := op
      awaitReady := if op.isSome then !ready else x.awaitReady })

/-- No page of the read in progress has failed. -/
def Port.healthy : Port → Bool
  | .reading ps => ps.all (fun rp => !rp.failed)
  | _ => false

/-- The port with the progress of one page of its read changed. -/
def Port.progressed (p : Port) (second : Bool) (g : ReadProgress) : Port :=
  match p with
  | .reading ps => .reading (ps.modify (if second then 1 else 0) (fun rp => { rp with progress := g }))
  | other => other

/-! ### What a completion leaves -/

/-- The lane is released (06 R100). -/
def State.idled (s : State) (l : LaneId) : State :=
  s.modLane l (fun x => { x with op := none, awaitReady := false, discard := false })

/-- The one page of a read that touches one page. -/
def Port.single : Port → Option ReadPage
  | .reading [rp] => some rp
  | _ => none

/-- The bytes slots gave a page at its grant. -/
def ReadProgress.slotsGave : ReadProgress → Option (List (Option ReadByte))
  | .granted _ g => some g
  | _ => none

/-- The slot a read fills. -/
def Reader.fillSlot : Reader → Option Nat
  | .fill k => some k
  | _ => none

/-- A whole page staged in slot k, SEALED at the tail of the queue (02 R42, R44). -/
def State.staged (s : State) (k page : Nat) (o : Origin) (data : List Byte) (poison : BitVec 8) : State :=
  { s with
    slots := s.slots.set k (some
      { phase := .sealed, stamp := s.nextStamp, page := page, origin := o, cells := data.map some,
        poison := poison, attempts := 0, flushMark := false, owed := false })
    nextStamp := s.nextStamp + 1
    commitQueue := s.commitQueue ++ [k] }

/-! ### What a mount finds -/

/-- The tag of a page whose tag CRC matches. -/
def TagRead.tag? : TagRead → Option Tag
  | .good t => some t
  | _ => none

/-- The page is a candidate for the logical page: its sequence, and whether it is intact (09 R144, R146). -/
def Classed.candidateFor (c : Classed) (n : Nat) : Option (Nat × Bool) :=
  match c.cls with
  | .candidate m q ok => if m = n then some (q, ok) else none
  | _ => none

/-! ### What a maintenance frame leaves -/

/-- The eight rows of SET_PARAM with the range of each parameter (11 Table 11.2). -/
def paramRows : List ((List Byte → Instr) × (Nat → Bool)) :=
  [(.setHoldTime, fun n => decide (n ≤ 60000)), (.setPatrolInterval, fun n => decide (n ≤ 65535)),
   (.setMigrationThreshold, fun n => n == 0 || decide (16 ≤ n ∧ n ≤ 1000000)),
   (.setWearLimit, fun n => decide (1000 ≤ n ∧ n ≤ 16000000)), (.setSoftLimit, fun n => decide (1 ≤ n ∧ n ≤ 255)),
   (.setReserveFloor, fun n => decide (2 ≤ n ∧ n ≤ 64)), (.setProgramTimeLimit, fun n => decide (1 ≤ n ∧ n ≤ 100)),
   (.setAttentionMask, fun n => decide (n < 512))]

/-- The port answers with a frame of status, length, data and their CRC-8 (11 R160). -/
def State.replied (s : State) (status : Nat) (data : List Byte) (popping : Bool) : State :=
  { s with
    serial := .answering
      ([BitVec.ofNat 8 status, BitVec.ofNat 8 data.length] ++ data ++
        [crc8 ([BitVec.ofNat 8 status, BitVec.ofNat 8 data.length] ++ data)]) popping }

/-- The long command waits for its record program on lane A, or has ended with LANE_OFFLINE (11 R164, 06 R99). -/
def State.recordPosted (s : State) (c : LongCmd) : State :=
  if s.laneA.online then
    { s with longCmd := some c, laneA := { s.laneA with claims := s.laneA.claims ++ [.recordProgram] } }
  else
    { s with
      longCmd := none
      notices := s.notices ++ [s.doneBy c 1 none] }

end Sys2Proof.Machine
end

