-- ==== Sys2Proof/Certificates/Slice0/Obligations.lean ====
section
/-! DEFINITION. The statements for the provers. Each names its rules in OBLIGATIONS.json; where a statement rests on a
choice of the model its docstring names the log entry. -/

open Sys2Proof
open Sys2Proof.Machine

/-! ## The step, the outcomes, the reset state -/

/-- A step takes the command at the front of the queue and runs it on the state with the queue's rest. -/
def Obligations.StepRunsFrontCommand : Prop :=
  ∀ (c : Instr) (rest : List Instr) (s : State), s.pending = c :: rest → step s = exec c { s with pending := rest }

/-- A command acts on everything but the queue. -/
def Obligations.CommandsLeaveTheQueue : Prop :=
  ∀ (c : Instr) (s t : State), exec c s = .next t → t.pending = s.pending

/-- No rule of the manual stops the part: a command stops exactly when its operands are ones no interface can carry
(the model's choice for those: log 19). -/
def Obligations.OnlyIllFormedCommandsStop : Prop :=
  ∀ (c : Instr) (s : State), goesOn (exec c s) ↔ c.WellFormed

/-- Power-on leaves every block at its reset value (the map, the pool and its creation counter, the lanes, the port, the
flags), takes PWARN and WPROT from their lines and begins a mount in which every present lane is ONLINE and waits for its
device; that it does so even where RESET was asserted before is the model's choice (log 44). Loss of power leaves nothing
but what is outside the part, which then does not act. That the newest record is absent and the format base 0 before a
mount's selection, and that the blocks read as at power-on without power, is the model's choice (log 24), and so is that a
request on the link is lost as power comes or goes (log 9). -/
def Obligations.SupplyClearsEveryBlock : Prop :=
  (∀ (straps : Straps) (pwarn wprot : Bool) (s : State), ∃ t,
    exec (.powerOn straps pwarn wprot) s = .next t ∧ t.Cleared straps ∧ t.AllOnline ∧ t.alive = true ∧
    t.causes = { maintenance := false, power := pwarn } ∧ t.wprotSampled = wprot ∧ t.serial = .idle ∧ t.link = [] ∧
    t.mount = some (freshMount t.geometry) ∧ t.answers = s.answers ∧ t.pending = s.pending) ∧
  (∀ s : State, s.powered = true → ∃ t,
    exec .powerLoss s = .next t ∧ t.powered = false ∧ t.alive = false ∧ t.Cleared s.pins.straps ∧ t.AllOnline ∧ t.mount = none ∧
    t.causes = { maintenance := false, power := false } ∧ t.serial = .idle ∧ t.link = [] ∧
    t.answers = s.answers ∧ t.pending = s.pending)

/-- RESET asserted clears every block (the map, the pool and its creation counter, the lanes, the port, the flags), reads
the straps and begins no mount; an OFFLINE lane stays OFFLINE, a request on the link goes on waiting, and a serial exchange
under way is abandoned. RESET deasserted makes every present lane ONLINE, takes the drain cause set from PWARN and the
sampled WPROT from its line, and begins a mount, and the requests that waited on the link through it are all answered RETRY.
The drain cause set is POWER or empty as PWARN stands, at the assertion too: that MAINTENANCE leaves it there, and that the
map and the working configuration are cleared there and not only as the mount begins, is the model's reading (log 25). That the newest record is then absent and
the format base 0 is its choice (log 24), that requests wait on the link through RESET its choice (log 9), as is that a
select period begun while RESET is asserted goes on (log 40). -/
def Obligations.ResetClearsEveryBlock : Prop :=
  (∀ (straps : Straps) (s : State), s.alive = true → ∃ t,
    exec (.resetAssertion straps) s = .next t ∧ t.Cleared straps ∧ t.alive = false ∧ t.mount = none ∧
    (∀ l, (t.lane l).online = ((s.lane l).online && t.geometry.has l)) ∧
    t.causes = { maintenance := false, power := s.pins.pwarn } ∧
    t.serial = (if s.serial = .idle then .idle else .spent) ∧
    t.link = s.link ∧ t.answers = s.answers ∧ t.pending = s.pending) ∧
  (∀ s : State, s.powered = true → s.pins.resetAsserted = true → s.link = [] → ∃ t,
    exec .resetDeassertion s = .next t ∧ t.Cleared s.pins.straps ∧ t.AllOnline ∧ t.alive = true ∧
    t.causes = { maintenance := false, power := s.pins.pwarn } ∧ t.wprotSampled = s.pins.wprot ∧
    t.mount = some (freshMount t.geometry) ∧ t.serial = s.serial ∧ t.answers = s.answers) ∧
  (∀ s : State, s.powered = true → s.pins.resetAsserted = true → ∃ t,
    exec .resetDeassertion s = .next t ∧ t.link = [] ∧
    t.answers = s.answers ++ List.replicate s.link.length .retry)

/-- The state right after reset is the mount just begun by power-on, with an empty queue, and the laws hold of it. -/
def Obligations.ResetStateIsMountBegun : Prop :=
  State.reset.Cleared State.reset.pins.straps ∧ State.reset.AllOnline ∧ State.reset.mount = some (freshMount State.reset.geometry) ∧
    State.reset.alive = true ∧ State.reset.pending = [] ∧
    State.reset.NoticesBounded ∧ State.reset.SixteenSlots ∧ State.reset.RelocBounded ∧
    State.reset.PassOverBounded ∧ State.reset.ModeFollows ∧ State.reset.LinesFollow ∧
    State.reset.GeometryFromStraps ∧ State.reset.CommitClaimsFollow ∧ State.reset.MarkClaimsFollow ∧
    State.reset.RelocationClaimsFollow

/-! ## Laws every step keeps -/

/-- Every step keeps the bounds of the lists and counts: at most 32 notices and a dropped count of at most 65,535,
sixteen slots, at most eight relocation entries, pass-over counts of at most eight. -/
def Obligations.BoundsKept : Prop :=
  ∀ s t : State, step s = .next t →
    (s.NoticesBounded → t.NoticesBounded) ∧ (s.SixteenSlots → t.SixteenSlots) ∧
    (s.RelocBounded → t.RelocBounded) ∧ (s.PassOverBounded → t.PassOverBounded)

/-- Every step keeps these: outside MOUNTING the mode is RUN exactly while the drain cause set is empty; the DRAINED line
and ATTN follow the state; the geometry in force is the one read from the straps. -/
def Obligations.ModeLinesGeometryKept : Prop :=
  ∀ s t : State, step s = .next t →
    (s.ModeFollows → t.ModeFollows) ∧ (s.LinesFollow → t.LinesFollow) ∧
    (s.GeometryFromStraps → t.GeometryFromStraps)

/-- Every step keeps the claims that follow from the state: a COMMIT claim stands on a lane exactly while the queue
holds a slot eligible for it, and a MARK claim exactly while its conditions hold (that no MARK claim stands while a mark
is under way is the model's reading: log 31); a RELOCATION_READ claim waits only while its conditions hold, and where they
hold with none waiting or granted the relocation list is empty. -/
def Obligations.ClaimsFollowState : Prop :=
  ∀ s t : State, step s = .next t →
    (s.CommitClaimsFollow → t.CommitClaimsFollow) ∧ (s.MarkClaimsFollow → t.MarkClaimsFollow) ∧
    (s.RelocationClaimsFollow → t.RelocationClaimsFollow)

/-! ## Frames, codes and records -/

/-- Decoding the frame of a command gives the command back, for every command a frame carries. Shifted in bit by bit, most
significant first and sampled at the rising edges of SCLK, the frame spells that command whatever bytes follow it in the
select period, and a period that ends before its last bit spells none. -/
def Obligations.EncodedFramesDecode : Prop :=
  ∀ (i : Instr) (frame : List Byte), i.carried = true → encodeFrame i = some frame →
    decodeFrame frame = some i ∧
    (∀ more : List Byte, periodCommand (clockedLevels (lineBits (frame ++ more))) = some i) ∧
    (∀ n < 8 * frame.length, periodCommand (clockedLevels ((lineBits frame).take n)) = none)

/-- Every whole frame spells one command, and that command's frame is the frame itself: no byte is dropped. -/
def Obligations.DecodedFramesEncode : Prop :=
  ∀ (frame : List Byte) (i : Instr), decodeFrame frame = some i → encodeFrame i = some frame

/-- A codeword read as it was programmed is CLEAN; with one data bit or one check bit inverted it is CORRECTED and the
data bytes come back; with two data bits inverted it is UNCORRECTABLE. -/
def Obligations.CodewordErrorsJudged : Prop :=
  ∀ cw : List Byte, cw.length = 8 →
    decodeCodeword cw (checkByte cw) = (.clean, cw) ∧
    (∀ d < 64, decodeCodeword (flipBit cw d) (checkByte cw) = (.corrected, cw)) ∧
    (∀ j < 8, decodeCodeword cw (checkByte cw ^^^ (1#8 <<< j)) = (.corrected, cw)) ∧
    (∀ d < 64, ∀ e < 64, d ≠ e →
      decodeCodeword (flipBit (flipBit cw d) e) (checkByte cw) = (.uncorrectable, flipBit (flipBit cw d) e))

/-- A copy read back as it was programmed has a GOOD tag for its own logical page and sequence, gives its 64 data bytes,
and has each codeword CLEAN but those whose poison flag its tag carries, which are UNCORRECTABLE. Of any 88 bytes read,
each codeword's data bytes are handed on corrected where its final outcome is CORRECTED and as read where it is not, as
under a poison flag or after a tag failure. -/
def Obligations.ProgrammedCopyReadsBack : Prop :=
  (∀ (data : List Byte) (t : Tag), data.length = 64 → isDataKind t.kind = true → t.logical < 65536 →
    t.seq < 2 ^ 48 → t.wear < 2 ^ 24 → t.soft < 256 →
    (pageImage data t).length = 88 ∧
    (decodeRead (pageImage data t) t.logical t.seq).tag = .good ∧
    (decodeRead (pageImage data t) t.logical t.seq).data = data ∧
    (∀ i < 8, (decodeRead (pageImage data t) t.logical t.seq).outcome i =
      if t.poison.getLsbD i then .uncorrectable else .clean) ∧
    (decodeRead (pageImage data t) t.logical t.seq).newlyLost = 0) ∧
  (∀ (bytes : List Byte) (n q : Nat), bytes.length = 88 →
    (decodeRead bytes n q).data.length = 64 ∧
    ∀ i < 8, codeword (decodeRead bytes n q).data i =
      if (decodeRead bytes n q).outcome i = .corrected
      then (decodeCodeword (codeword bytes i) (bytes.getD (64 + i) 0#8)).2
      else codeword bytes i)

/-- A system record programmed for a legal configuration is valid at a mount and gives the configuration and the format
base back. -/
def Obligations.RecordReadsBack : Prop :=
  ∀ (g : Geometry) (c : WorkCfg) (base seq wear : Nat),
    capacityOk g c.capacity = true → wearLimitOk c.wearLimit = true → softLimitOk c.softLimit = true →
    migThresholdOk c.migThreshold = true → holdTimeOk c.holdTime = true → patrolIntervalOk c.patrolInterval = true →
    reserveFloorOk c.reserveFloor = true → progLimitOk c.progLimit = true → c.windows.length = 4 →
    (∀ w ∈ c.windows, w.first < 65536 ∧ w.last < 65536) → base < 2 ^ 48 → seq < 2 ^ 48 → wear < 2 ^ 24 →
    foundRecord g (recordImage g c base seq wear) = some { seq := seq, cfg := c, base := base }

/-- Some words of frames written out from the tables: GET_STATUS, SET_PARAM hold time 2000, SET_WINDOW 1 over pages 16
to 31 LOCKED SYNC, FORMAT; and a frame whose CRC is wrong. -/
def Obligations.FramesWrittenOut : Prop :=
  decodeFrame [0x01, 0x00, 0x15] = some (.getStatus []) ∧
  decodeFrame [0x09, 0x05, 0x01, 0x00, 0x00, 0x07, 0xD0, crc8 [0x09, 0x05, 0x01, 0x00, 0x00, 0x07, 0xD0]] =
    some (.setHoldTime [0x00, 0x00, 0x07, 0xD0]) ∧
  decodeFrame [0x0A, 0x07, 0x01, 0x00, 0x10, 0x00, 0x1F, 0x02, 0x01,
      crc8 [0x0A, 0x07, 0x01, 0x00, 0x10, 0x00, 0x1F, 0x02, 0x01]] =
    some (.setWindow [0x01, 0x00, 0x10, 0x00, 0x1F, 0x02, 0x01]) ∧
  decodeFrame [0x25, 0x00, crc8 [0x25, 0x00]] = some (.format []) ∧
  decodeFrame [0x01, 0x00, 0x16] = some (.badFrame [0x01, 0x00, 0x16])

/-! ## The map, the pool and the windows -/

/-- A page has the most restrictive protection among the windows that cover it, and SYNC when any of them has SYNC; with
none it is OPEN and POSTED; the order of the windows and repeated windows make no difference, and two windows of one
range are no different from one that carries the more restrictive protection, and SYNC when either has it. -/
def Obligations.EffectiveProtection : Prop :=
  ∀ (s : State) (page : Nat),
    (∀ w ∈ s.covering page, w.protection.rank ≤ (s.protection page).rank) ∧
    ((∃ w ∈ s.covering page, w.protection = s.protection page) ∨
      (s.covering page = [] ∧ s.protection page = .opened)) ∧
    (s.commitMode page = .sync ↔ ∃ w ∈ s.covering page, w.commitMode = .sync) ∧
    (∀ w, w ∈ s.covering page ↔ w ∈ s.cfg.windows ∧ w.first ≤ page ∧ page ≤ w.last ∧ page < s.cfg.capacity) ∧
    (∀ t : State, t.cfg.capacity = s.cfg.capacity → (∀ w, w ∈ t.cfg.windows ↔ w ∈ s.cfg.windows) →
      t.protection page = s.protection page ∧ t.commitMode page = s.commitMode page) ∧
    (∀ (first last : Nat) (p q : Protection) (m k : CommitMode) (rest : List Window) (t u : State),
      t = { s with cfg := { s.cfg with windows := ⟨first, last, p, m⟩ :: ⟨first, last, q, k⟩ :: rest } } →
      u = { s with cfg := { s.cfg with windows :=
              ⟨first, last, if p.rank < q.rank then q else p, if m = .sync then .sync else k⟩ :: rest } } →
      t.protection page = u.protection page ∧ t.commitMode page = u.commitMode page)

/-- Merging places each byte of the write at its offset and sets its valid flag, clears the poison of the codewords whose
eight bytes the write itself supplies and of no other, makes the origin HOST, and changes nothing else of the slot. -/
def Obligations.MergeRule : Prop :=
  ∀ (sl : Slot) (pt : Part), sl.cells.length = 64 → pt.off + pt.data.length ≤ 64 →
    (sl.merged pt).cells.length = 64 ∧
    (∀ o < 64, (sl.merged pt).cells[o]? =
      if pt.off ≤ o ∧ o < pt.off + pt.data.length then some (pt.data[o - pt.off]?) else sl.cells[o]?) ∧
    (∀ i < 8, (sl.merged pt).poison.getLsbD i =
      (sl.poison.getLsbD i && !(decide (pt.off ≤ 8 * i) && decide (8 * i + 8 ≤ pt.off + pt.data.length)))) ∧
    (sl.merged pt).origin = .host ∧ (sl.merged pt).phase = sl.phase ∧ (sl.merged pt).stamp = sl.stamp ∧
    (sl.merged pt).page = sl.page ∧ (sl.merged pt).attempts = sl.attempts ∧
    (sl.merged pt).flushMark = sl.flushMark ∧ (sl.merged pt).owed = sl.owed

/-- A fill gives the unwritten bytes from its source and poisons exactly the codewords that were poisoned before or that
are poisoned in the source and not fully covered by the host's bytes; the mask is then full and the slot SEALED. -/
def Obligations.FillRule : Prop :=
  ∀ (sl : Slot) (src : List Byte) (srcPoison : BitVec 8), sl.cells.length = 64 → src.length = 64 →
    (sl.filled src srcPoison).full = true ∧ (sl.filled src srcPoison).phase = .sealed ∧
    (∀ o < 64, (sl.filled src srcPoison).cells[o]? = some (some (((sl.cells[o]?).join).getD (src.getD o 0)))) ∧
    (∀ i < 8, (sl.filled src srcPoison).poison.getLsbD i =
      (sl.poison.getLsbD i || (srcPoison.getLsbD i &&
        !(List.range 8).all (fun j => ((sl.cells[8 * i + j]?).join).isSome)))) ∧
    (sl.filled src srcPoison).stamp = sl.stamp ∧ (sl.filled src srcPoison).page = sl.page ∧
    (sl.filled src srcPoison).origin = sl.origin ∧ (sl.filled src srcPoison).attempts = sl.attempts ∧
    (sl.filled src srcPoison).flushMark = sl.flushMark ∧ (sl.filled src srcPoison).owed = sl.owed

/-- A RELOCATE or MIGRATE slot is created exactly when the page has no slot, the drain cause set is empty and at least
five slots are FREE: the lowest-numbered FREE slot, SEALED at the tail of the queue with every byte valid; nothing else
changes, unless the exhaustion condition holds and drops it at once. -/
def Obligations.InternalSlotCreated : Prop :=
  ∀ (s : State) (page : Nat) (o : Origin) (data : List Byte) (poison : BitVec 8),
    ((s.createSlot page o data poison).isSome =
      (!s.hasSlot page && !s.causes.any && decide (5 ≤ s.freeCount))) ∧
    (∀ t, s.createSlot page o data poison = some t → ∃ k,
      s.slots[k]? = some none ∧ (∀ j < k, s.slots[j]? ≠ some none) ∧
      (s.exhaustion = false →
        t = { s with
              slots := s.slots.set k (some
                { phase := .sealed, stamp := s.nextStamp, page := page, origin := o, cells := data.map some,
                  poison := poison, attempts := 0, flushMark := false, owed := false })
              nextStamp := s.nextStamp + 1
              commitQueue := s.commitQueue ++ [k] }) ∧
      (s.exhaustion = true → t.slot k = none ∧ t.commitQueue = [] ∧ t.nextStamp = s.nextStamp + 1))

/-- Releasing a copy retires its page, with its notice, when a limit is met, and otherwise frees it into its lane's list;
its counts stay, and no other page changes. A free list in ascending order of wear and, among equal wear, of index stays so:
the released page stands in it at the place its wear and index give it. -/
def Obligations.ReleaseRule : Prop :=
  (∀ (pages : List PageRec) (i : Nat) (l : List Nat), i ∉ l →
    l.Pairwise (fun a b => freeBefore pages a b = true) →
    (insertFree pages i l).Pairwise (fun a b => freeBefore pages a b = true)) ∧
  ∀ (s : State) (p : PPage) (logical : Nat), p.index < (s.lane p.lane).pages.length →
    (s.cfg.wearLimit ≤ (s.page p).wear ∨ s.cfg.softLimit ≤ (s.page p).soft →
      (s.release p logical).page p = { s.page p with state := .retired } ∧
      ((s.release p logical).lane p.lane).freeList = (s.lane p.lane).freeList ∧
      p.index ∈ ((s.release p logical).lane p.lane).markList ∧
      (s.notices.length < 32 → (s.release p logical).notices = s.notices ++
        [{ kind := .pageRetired, lane := some p.lane, index := some p.index, logical := some logical,
           detail := if s.cfg.wearLimit ≤ (s.page p).wear then 1 else 2 }])) ∧
    (¬ (s.cfg.wearLimit ≤ (s.page p).wear ∨ s.cfg.softLimit ≤ (s.page p).soft) →
      (s.release p logical).page p = { s.page p with state := .free } ∧
      (((s.release p logical).lane p.lane).freeList).Perm (p.index :: (s.lane p.lane).freeList) ∧
      ((s.release p logical).lane p.lane).freeList =
        insertFree (s.lane p.lane).pages p.index (s.lane p.lane).freeList ∧
      (p.index ∉ (s.lane p.lane).freeList →
        (s.lane p.lane).freeList.Pairwise (fun a b => freeBefore (s.lane p.lane).pages a b = true) →
        ((s.release p logical).lane p.lane).freeList.Pairwise
          (fun a b => freeBefore ((s.release p logical).lane p.lane).pages a b = true)) ∧
      ((s.release p logical).lane p.lane).markList = (s.lane p.lane).markList ∧
      (s.release p logical).notices = s.notices) ∧
    (∀ q, q ≠ p → (s.release p logical).page q = s.page q) ∧
    (s.release p logical).remap = s.remap ∧ (s.release p logical).slots = s.slots ∧
    (s.release p logical).lane p.lane.other = s.lane p.lane.other

/-- A verified copy takes its entry only with a greater sequence; the copy that loses its place is the one released. -/
def Obligations.EntryTakesGreaterSequence : Prop :=
  ∀ (s : State) (page : Nat) (p : PPage) (q : Nat), page < s.remap.length →
    (∀ old oq, s.entry page = .mapped old oq → oq < q →
      (s.adopt page p q).1.entry page = .mapped p q ∧ (s.adopt page p q).2 = some old) ∧
    (∀ old oq, s.entry page = .mapped old oq → q ≤ oq →
      (s.adopt page p q).1.entry page = .mapped old oq ∧ (s.adopt page p q).2 = some p) ∧
    ((s.entry page = .unmapped ∨ s.entry page = .absent) →
      (s.adopt page p q).1.entry page = .mapped p q ∧ (s.adopt page p q).2 = none) ∧
    (∀ n, n ≠ page → (s.adopt page p q).1.entry n = s.entry n)

/-- A recomputation takes the space state from the free lists of the ONLINE lanes, the floor and the counter; a change
gives one notice and sets the flag of the new state, and no change gives nothing. -/
def Obligations.SpaceRecomputed : Prop :=
  ∀ s : State,
    (s.recompute.space =
      if 0xFFFFFFFFFFFF ≤ s.seq then .exhausted
      else if s.freeTotal = 0 then .exhausted
      else if s.freeTotal ≤ s.cfg.reserveFloor then .low else .ample) ∧
    (s.recompute.space = s.space → s.recompute = s) ∧
    (s.recompute.space ≠ s.space → s.notices.length < 32 →
      s.recompute.notices = s.notices ++
        [{ kind := .spaceChanged, lane := none, index := none, logical := none,
           detail := s.recompute.space.code }]) ∧
    (s.recompute.space ≠ s.space → s.recompute.space = .low → s.recompute.faults.spaceLow = true) ∧
    (s.recompute.space ≠ s.space → s.recompute.space = .exhausted → s.recompute.faults.spaceExhausted = true)

/-- While the exhaustion condition holds the commit queue is dropped to its end; each slot dropped gives a COMMIT_LOST
notice with its logical page and origin, in queue order, and sets the COMMIT_LOST flag; what the drop changes is confined
to the pool and to what a slot's departure enables. Where the condition does not hold nothing changes. -/
def Obligations.ExhaustionDropsQueue : Prop :=
  ∀ s : State, PoolOnly s s.exhaust ∧
    (s.exhaustion = true → s.commitQueue.Nodup → s.exhaust.commitQueue = [] ∧
      (∀ k ∈ s.commitQueue, s.exhaust.slot k = none) ∧
      (s.notices.length + s.commitQueue.length < 32 →
        s.exhaust.notices.filter (fun n => n.kind == .commitLost) =
          s.notices.filter (fun n => n.kind == .commitLost) ++
          (s.commitQueue.filterMap s.slot).map (fun sl =>
            { kind := .commitLost, lane := none, index := none, logical := some sl.page
              detail := 2 + 16 * (match sl.origin with | .host => 0 | .relocate => 1 | .migrate _ => 2) })) ∧
      (s.commitQueue.filterMap s.slot ≠ [] → s.exhaust.faults.commitLost = true)) ∧
    (s.exhaustion = false → s.exhaust = s)

/-- The arbiter of a free lane grants COMMIT when it has been passed over eight times, and otherwise a waiting claim of
the highest priority, the earliest posted within it; a lane that is not free grants nothing. -/
def Obligations.ArbiterChoosesByPriority : Prop :=
  ∀ (s : State) (l : LaneId),
    (s.laneFree l = false → s.arbiter l = none) ∧
    (s.laneFree l = true → .commit ∈ (s.lane l).claims → 8 ≤ (s.lane l).passOver → s.arbiter l = some .commit) ∧
    (s.laneFree l = true → ¬ (.commit ∈ (s.lane l).claims ∧ 8 ≤ (s.lane l).passOver) →
      ((s.lane l).claims = [] → s.arbiter l = none) ∧
      ((s.lane l).claims ≠ [] → ∃ before after c, (s.lane l).claims = before ++ c :: after ∧
        s.arbiter l = some c ∧ (∀ d ∈ before, c.priority < d.priority) ∧ ∀ d ∈ after, c.priority ≤ d.priority))

/-- The patrol page is the first page, from the cursor upward and around, that is MAPPED on an ONLINE lane and has no
slot; there is none exactly when every page below the capacity that is MAPPED has a slot or stands on an OFFLINE lane. -/
def Obligations.PatrolSearchFindsFirst : Prop :=
  (∀ (s : State) (n : Nat) (p : PPage), s.patrolPage = some (n, p) →
    s.hasSlot n = false ∧ (s.lane p.lane).online = true ∧ s.mappedAt n p = true ∧
    ∃ i < s.cfg.capacity, n = (s.cursor + i) % s.cfg.capacity ∧
      ∀ j < i, ∀ q, s.mappedAt ((s.cursor + j) % s.cfg.capacity) q = true →
        s.hasSlot ((s.cursor + j) % s.cfg.capacity) = true ∨ (s.lane q.lane).online = false) ∧
  (∀ s : State, s.patrolPage = none ↔
    ∀ n < s.cfg.capacity, ∀ p q, s.entry n = .mapped p q →
      s.hasSlot n = true ∨ (s.lane p.lane).online = false)

/-! ## Lines -/

/-- PWARN asserted with an empty drain cause set outside MOUNTING starts a drain: POWER joins the set, every OPEN slot is
sealed and stands FILLING or SEALED with its page and bytes while every other slot stays as it was, the mode is DRAINED or
DRAINING as the pool is empty or not, the DRAINED line follows, the interval timer stops and the waiting background reads
are withdrawn. While a cause stands already, and in MOUNTING, only the set changes. PWARN
deasserted takes POWER out of the set; where the set thereby becomes empty outside MOUNTING the mode is RUN and the timer
starts again, one interval ahead (the field holds the interval: log 3). While RESET is asserted the mode is MOUNTING, and the
set changes with PWARN and nothing else does. -/
def Obligations.PowerWarningDrains : Prop :=
  (∀ s : State, s.Quiet → s.mode ≠ .mounting → s.causes.any = false → ∃ t,
    exec .pwarnAssertion s = .next t ∧ t.pins.pwarn = true ∧
    t.causes = { maintenance := false, power := true } ∧ t.openSlots = [] ∧
    t.mode = (if t.allFree then .drained else .draining) ∧ t.drainedLine = t.allFree ∧ t.timer = none ∧
    (∀ l, .patrolRead ∉ (t.lane l).claims ∧ .relocationRead ∉ (t.lane l).claims) ∧
    ((∃ l, .patrolRead ∈ (s.lane l).claims) → t.patrolRead = none) ∧
    ((∀ l, .patrolRead ∉ (s.lane l).claims) → t.patrolRead = s.patrolRead) ∧
    (s.openSlots = [] → t.slots = s.slots ∧ t.commitQueue = s.commitQueue) ∧
    t.PoolSealed s (fun sl => sl) ∧
    (s.exhaustion = false →
      t.port = s.port ∧ t.answers = s.answers ∧ t.longCmd = s.longCmd ∧ t.notices = s.notices ∧
      t.faults = s.faults ∧ t.stats = s.stats) ∧
    t.cfg = s.cfg ∧ t.remap = s.remap ∧ t.seq = s.seq ∧ t.space = s.space ∧ t.cursor = s.cursor) ∧
  (∀ s : State, s.Quiet → (s.mode = .mounting ∨ s.causes.any = true) →
    SettlesTo (exec .pwarnAssertion s)
      { s with
        pins := { s.pins with pwarn := true }
        causes := { s.causes with power := true } }) ∧
  (∀ s : State, s.Quiet → s.mode ≠ .mounting → s.causes = { maintenance := false, power := true } →
    SettlesTo (exec .pwarnDeassertion s)
      { s with
        pins := { s.pins with pwarn := false }
        causes := { maintenance := false, power := false }
        mode := .run
        timer := if s.cfg.patrolInterval = 0 then none else some s.cfg.patrolInterval }) ∧
  (∀ s : State, s.Quiet → (s.mode = .mounting ∨ s.causes.maintenance = true ∨ s.causes.power = false) →
    SettlesTo (exec .pwarnDeassertion s)
      { s with
        pins := { s.pins with pwarn := false }
        causes := { s.causes with power := false } }) ∧
  (∀ s : State, s.powered = true → s.pins.resetAsserted = true → s.mode = .mounting →
    SettlesTo (exec .pwarnAssertion s)
      { s with
        pins := { s.pins with pwarn := true }
        causes := { s.causes with power := true } } ∧
    SettlesTo (exec .pwarnDeassertion s)
      { s with
        pins := { s.pins with pwarn := false }
        causes := { s.causes with power := false } })

/-- WPROT is sampled: a PIN page is write-protected exactly while it is asserted, a page of another protection is as it
was, and nothing else changes. -/
def Obligations.WriteProtectSampled : Prop :=
  ∀ s : State, s.alive = true →
    (∃ t, exec .wprotAssertion s = .next t ∧
      t = { s with pins := { s.pins with wprot := true }, wprotSampled := true } ∧
      ∀ page, t.writeProtected page = (s.protection page != .opened)) ∧
    (∃ t, exec .wprotDeassertion s = .next t ∧
      t = { s with pins := { s.pins with wprot := false }, wprotSampled := false } ∧
      ∀ page, t.writeProtected page = (s.protection page == .locked || s.protection page == .sealed))

/-! ## The host port -/

/-- The checks of a write on an idle port, in their order: the first that applies gives the answer, and nothing else
changes. The pages touched are those from addr / 64 to (addr + length - 1) / 64. -/
def Obligations.WriteChecksInOrder : Prop :=
  ∀ (s : State) (addr : Nat) (data : List Byte), s.Quiet → s.port = .idle → 1 ≤ data.length → data.length ≤ 64 →
    (s.mode ≠ .run →
      SettlesTo (exec (.hostWrite addr data) s)
        { s with answers := s.answers ++ [.retry], stats := { s.stats with retries := s.stats.retries + 1 } }) ∧
    (s.mode = .run → s.cfg.capacity * 64 < addr + data.length →
      SettlesTo (exec (.hostWrite addr data) s) { s with answers := s.answers ++ [.fault .range] }) ∧
    (s.mode = .run → addr + data.length ≤ s.cfg.capacity * 64 →
      (s.writeProtected (addr / 64) = true ∨ s.writeProtected ((addr + data.length - 1) / 64) = true) →
      SettlesTo (exec (.hostWrite addr data) s) { s with answers := s.answers ++ [.fault .writeProtected] }) ∧
    (s.mode = .run → addr + data.length ≤ s.cfg.capacity * 64 →
      s.writeProtected (addr / 64) = false → s.writeProtected ((addr + data.length - 1) / 64) = false →
      (s.space = .exhausted ∨ (s.space = .low ∧
        (s.needsFirstCopy (addr / 64) = true ∨ s.needsFirstCopy ((addr + data.length - 1) / 64) = true))) →
      SettlesTo (exec (.hostWrite addr data) s) { s with answers := s.answers ++ [.fault .noSpace] }) ∧
    (s.mode = .run → addr + data.length ≤ s.cfg.capacity * 64 →
      s.writeProtected (addr / 64) = false → s.writeProtected ((addr + data.length - 1) / 64) = false →
      s.space ≠ .exhausted →
      (s.space = .low →
        s.needsFirstCopy (addr / 64) = false ∧ s.needsFirstCopy ((addr + data.length - 1) / 64) = false) →
      s.freeCount <
        ((List.range' (addr / 64) ((addr + data.length - 1) / 64 + 1 - addr / 64)).countP
          (fun page => (s.mergeTarget page).isNone)) →
      SettlesTo (exec (.hostWrite addr data) s)
        { s with answers := s.answers ++ [.retry], stats := { s.stats with retries := s.stats.retries + 1 } })

/-- A POSTED write of one page with no slot to merge into opens the lowest-numbered FREE slot, OPEN with the hold time in
force (the deadline field holds that time: log 3) or, when it fills the page, SEALED at the tail of the queue, and is
answered DONE. With a hold time of 0 a slot that is not full is sealed at once: filled from an older complete slot, with
erased bytes for an UNMAPPED page or with poison where no source can be read, or left FILLING with its FILL_READ posted. An
allocation that leaves fewer than four FREE slots seals the oldest OPEN slot. A POSTED write over two pages places each
part, the lower page first, into its page's slot or a new one, and seals those OPEN slots it fills in the order of their
creation. -/
def Obligations.WriteOpensSlot : Prop :=
  (∀ (s : State) (page off k : Nat) (data : List Byte), s.Quiet → s.port = .idle → s.mode = .run →
    1 ≤ data.length → off + data.length ≤ 64 → page < s.cfg.capacity →
    s.writeProtected page = false → s.commitMode page = .posted →
    s.space = .ample ∨ (s.space = .low ∧ s.needsFirstCopy page = false) →
    s.mergeTarget page = none → s.slots[k]? = some none → (∀ j < k, s.slots[j]? ≠ some none) →
    let sl : Slot :=
      { phase := .opened s.cfg.holdTime, stamp := s.nextStamp, page := page, origin := .host,
        cells := List.replicate off none ++ data.map some ++ List.replicate (64 - off - data.length) none,
        poison := 0, attempts := 0, flushMark := false, owed := false }
    let u : State := { (s.wrote false) with slots := s.slots.set k (some sl), nextStamp := s.nextStamp + 1 }
    let o := exec (.hostWrite (64 * page + off) data) s
    (5 ≤ s.freeCount →
      (data.length < 64 → s.cfg.holdTime ≠ 0 → SettlesTo o u) ∧
      (data.length = 64 →
        SettlesTo o
          { u with
            slots := s.slots.set k (some { sl with phase := .sealed, cells := data.map some })
            commitQueue := s.commitQueue ++ [k] }) ∧
      (data.length < 64 → s.cfg.holdTime = 0 →
        (∀ older, s.olderComplete sl = some older →
          SettlesTo o
            { u with
              slots := s.slots.set k (some (sl.filled older.image older.poison))
              commitQueue := s.commitQueue ++ [k] }) ∧
        (s.olderComplete sl = none → s.entry page = .unmapped →
          SettlesTo o
            { u with
              slots := s.slots.set k (some (sl.filled (List.replicate 64 0xFF#8) 0#8))
              commitQueue := s.commitQueue ++ [k] }) ∧
        (s.olderComplete sl = none → s.entry page ≠ .unmapped → ∀ l, s.copyLane page = some l →
          SettlesTo o
            { (u.post l (.fillRead k)) with slots := s.slots.set k (some { sl with phase := .filling }) }) ∧
        (s.olderComplete sl = none → s.entry page ≠ .unmapped → s.copyLane page = none →
          SettlesTo o
            { u with
              slots := s.slots.set k (some (sl.filled (List.replicate 64 0xFF#8) 0xFF#8))
              commitQueue := s.commitQueue ++ [k] }))) ∧
    (s.freeCount < 5 → data.length < 64 → s.cfg.holdTime ≠ 0 →
      ∀ j oldest, u.slot j = some oldest → oldest.isOpen = true →
        (∀ r ∈ u.usedSlots, r.1 ≠ j → r.2.isOpen = true → oldest.stamp < r.2.stamp) →
        SettlesTo o (u.seal j))) ∧
  (∀ (s : State) (page off : Nat) (data : List Byte), s.Quiet → s.port = .idle → s.mode = .run →
    off < 64 → 64 < off + data.length → data.length ≤ 64 → page + 1 < s.cfg.capacity →
    s.writeProtected page = false → s.writeProtected (page + 1) = false →
    s.commitMode page = .posted → s.commitMode (page + 1) = .posted →
    s.space = .ample ∨ (s.space = .low ∧ s.needsFirstCopy page = false ∧ s.needsFirstCopy (page + 1) = false) →
    6 ≤ s.freeCount → s.cfg.holdTime ≠ 0 →
    let lower : Part := { page := page, off := off, data := data.take (64 - off) }
    let upper : Part := { page := page + 1, off := 0, data := data.drop (64 - off) }
    ∀ a, s.takes lower = some a → ∀ b, (s.placing lower).takes upper = some b →
      (a.2.phase ≠ .filling ∨ a.2.full = false) → (b.2.phase ≠ .filling ∨ b.2.full = false) →
      let u := (s.placing lower).placing upper
      let sealing := (if a.2.stamp < b.2.stamp then [a, b] else [b, a]).filter (fun r => r.2.full && r.2.isOpen)
      SettlesTo (exec (.hostWrite (64 * page + off) data) s)
        { (u.wrote ((s.mergeTarget page).isSome || (s.mergeTarget (page + 1)).isSome)) with
          slots := sealing.foldl (fun ss r => ss.set r.1 (some { r.2 with phase := .sealed })) u.slots
          commitQueue := s.commitQueue ++ sealing.map (·.1) })

/-- A POSTED write of one page whose newest slot is not in flight is merged into that slot and answered DONE, as a part of
a write over two pages is (its own statement). A merge that
fills the mask seals an OPEN slot at the tail of the queue, and ends the fill of a FILLING slot whose read is not under
way, taking back its claim; in every other case the slot only takes the bytes. -/
def Obligations.WriteMerges : Prop :=
  ∀ (s : State) (page off : Nat) (data : List Byte), s.Quiet → s.port = .idle → s.mode = .run →
    1 ≤ data.length → off + data.length ≤ 64 → page < s.cfg.capacity →
    s.writeProtected page = false → s.commitMode page = .posted → s.space ≠ .exhausted →
    ∀ r, s.mergeTarget page = some r → r.2.cells.length = 64 →
      let sl := r.2.merged { page := page, off := off, data := data }
      let done : State := s.wrote true
      (sl.full = false ∨ sl.phase = .sealed ∨ (sl.phase = .filling ∧ s.fillGranted r.1 = true) →
        SettlesTo (exec (.hostWrite (64 * page + off) data) s) { done with slots := s.slots.set r.1 (some sl) }) ∧
      (sl.full = true → sl.isOpen = true →
        SettlesTo (exec (.hostWrite (64 * page + off) data) s)
          { done with
            slots := s.slots.set r.1 (some { sl with phase := .sealed })
            commitQueue := s.commitQueue ++ [r.1] }) ∧
      (sl.full = true → sl.phase = .filling → s.fillGranted r.1 = false →
        SettlesTo (exec (.hostWrite (64 * page + off) data) s)
          { done with
            slots := s.slots.set r.1 (some { sl with phase := .sealed })
            commitQueue := s.commitQueue ++ [r.1]
            laneA := { s.laneA with claims := s.laneA.claims.filter (fun c => c != .fillRead r.1) }
            laneB := { s.laneB with claims := s.laneB.claims.filter (fun c => c != .fillRead r.1) } })

/-- A SYNC write of one page without a slot, of an UNMAPPED page, seals its slot at once, erased bytes standing for those
it does not bring, and holds its answer; over two such pages, of which one is SYNC, it seals both, the lower page's first,
and both owe the answer. The departure of the last slot that owes gives the held answer, DONE or FAULT
COMMIT_FAILED when one was lost. -/
def Obligations.SyncWriteHeld : Prop :=
  (∀ (s : State) (page off k : Nat) (data : List Byte), s.Quiet → s.port = .idle → s.mode = .run →
    1 ≤ data.length → off + data.length ≤ 64 → page < s.cfg.capacity →
    s.writeProtected page = false → s.commitMode page = .sync → s.space = .ample →
    s.hasSlot page = false → s.entry page = .unmapped → 5 ≤ s.freeCount →
    s.slots[k]? = some none → (∀ j < k, s.slots[j]? ≠ some none) →
    SettlesTo (exec (.hostWrite (64 * page + off) data) s)
      { s with
        slots := s.slots.set k (some
          { phase := .sealed, stamp := s.nextStamp, page := page, origin := .host,
            cells := List.replicate off (some 0xFF#8) ++ data.map some ++
              List.replicate (64 - off - data.length) (some 0xFF#8),
            poison := 0, attempts := 0, flushMark := false, owed := true })
        nextStamp := s.nextStamp + 1
        commitQueue := s.commitQueue ++ [k]
        port := .holding [k] false
        stats := { s.stats with hostWrites := s.stats.hostWrites + 1 } }) ∧
  (∀ (s : State) (page off k j : Nat) (data : List Byte), s.Quiet → s.port = .idle → s.mode = .run →
    off < 64 → 64 < off + data.length → data.length ≤ 64 → page + 1 < s.cfg.capacity →
    s.writeProtected page = false → s.writeProtected (page + 1) = false →
    s.commitMode page = .sync ∨ s.commitMode (page + 1) = .sync → s.space = .ample →
    s.hasSlot page = false → s.hasSlot (page + 1) = false →
    s.entry page = .unmapped → s.entry (page + 1) = .unmapped → 6 ≤ s.freeCount →
    s.slots[k]? = some none → (∀ i < k, s.slots[i]? ≠ some none) →
    k < j → s.slots[j]? = some none → (∀ i < j, i ≠ k → s.slots[i]? ≠ some none) →
    let whole := fun (stamp page : Nat) (cells : List (Option Byte)) => (
      { phase := .sealed, stamp := stamp, page := page, origin := .host, cells := cells, poison := 0, attempts := 0
        flushMark := false, owed := true } : Slot)
    SettlesTo (exec (.hostWrite (64 * page + off) data) s)
      { s with
        slots := (s.slots.set k (some (whole s.nextStamp page
            (List.replicate off (some 0xFF#8) ++ (data.take (64 - off)).map some)))).set j
          (some (whole (s.nextStamp + 1) (page + 1) ((data.drop (64 - off)).map some ++
            List.replicate (128 - off - data.length) (some 0xFF#8))))
        nextStamp := s.nextStamp + 2
        commitQueue := s.commitQueue ++ [k, j]
        port := .holding [k, j] false
        stats := { s.stats with hostWrites := s.stats.hostWrites + 1 } }) ∧
  (∀ (s : State) (k : Nat) (failed : Bool) (how : Leave), s.port = .holding [k] failed →
    ∀ sl, s.slot k = some sl → sl.owed = true →
      (s.freeSlot k how).port = .idle ∧ (s.freeSlot k how).slot k = none ∧
      (s.freeSlot k how).answers =
        s.answers ++ [if failed || how == .lost then .fault .commitFailed else .done]) ∧
  (∀ (s : State) (k j : Nat) (failed : Bool) (how : Leave), j ≠ k → s.port = .holding [k, j] failed →
    ∀ sl, s.slot k = some sl → sl.owed = true →
      (s.freeSlot k how).port = .holding [j] (failed || how == .lost) ∧ (s.freeSlot k how).answers = s.answers)

/-- A read on an idle port is answered at once: RETRY in MOUNTING; FAULT RANGE beyond the capacity; within one page, the
bytes when slots give them all or the page is UNMAPPED, erased bytes standing for those no slot gives, with FAULT
UNCORRECTABLE when one of them is poisoned; FAULT LANE_OFFLINE when a byte no slot gives is on an OFFLINE lane or
ABSENT. Where it is on an ONLINE lane the read posts its HOST_READ claim there and the port is READING. Over two pages it
is answered at once when both are at hand, or when one of them has no source, and otherwise posts the claims of the pages
that need a lane, the first page's first, with the bytes at hand of the other taken. -/
def Obligations.ReadTaken : Prop :=
  (∀ (s : State) (addr len : Nat), s.Quiet → s.port = .idle → 1 ≤ len → len ≤ 64 →
    (s.mode = .mounting → SettlesTo (exec (.hostRead addr len) s)
      { s with answers := s.answers ++ [.retry], stats := { s.stats with retries := s.stats.retries + 1 } }) ∧
    (s.mode ≠ .mounting → s.cfg.capacity * 64 < addr + len →
      SettlesTo (exec (.hostRead addr len) s) { s with answers := s.answers ++ [.fault .range] })) ∧
  (∀ (s : State) (page off len : Nat), s.Quiet → s.port = .idle → 1 ≤ len → off + len ≤ 64 → s.mode ≠ .mounting →
    page < s.cfg.capacity →
    ((∀ i < len, (s.slotByte page (off + i)).isSome = true) ∨ s.entry page = .unmapped →
      let bytes : List ReadByte :=
        (List.range len).map (fun i => (s.slotByte page (off + i)).getD { byte := 0xFF#8, poisoned := false })
      SettlesTo (exec (.hostRead (64 * page + off) len) s)
        { s with answers := s.answers ++ [if bytes.any (·.poisoned) then .fault .uncorrectable
                                          else .data (bytes.map (·.byte))] }) ∧
    ((∃ i < len, s.slotByte page (off + i) = none) →
      (s.entry page = .absent →
        SettlesTo (exec (.hostRead (64 * page + off) len) s)
          { s with answers := s.answers ++ [.fault .laneOffline] }) ∧
      (∀ p q, s.entry page = .mapped p q → (s.lane p.lane).online = false →
        SettlesTo (exec (.hostRead (64 * page + off) len) s)
          { s with answers := s.answers ++ [.fault .laneOffline] }))) ∧
  (∀ (s : State) (page off len : Nat), s.Quiet → s.port = .idle → 1 ≤ len → off + len ≤ 64 → s.mode ≠ .mounting →
     page < s.cfg.capacity → (∃ i < len, s.slotByte page (off + i) = none) →
     ∀ p q, s.entry page = .mapped p q → (s.lane p.lane).online = true →
       SettlesTo (exec (.hostRead (64 * page + off) len) s)
         { (s.post p.lane (.hostRead false)) with
           port := .reading [{ page := page, off := off, len := len, progress := .waiting p.lane }] }) ∧
  (∀ (s : State) (page off len : Nat), s.Quiet → s.port = .idle → off < 64 → 64 < off + len → len ≤ 64 →
     s.mode ≠ .mounting → page + 1 < s.cfg.capacity →
     let first := s.bytesAtHand page off (64 - off)
     let second := s.bytesAtHand (page + 1) 0 (off + len - 64)
     let reading := fun (f g : ReadProgress) => Port.reading
       [{ page := page, off := off, len := 64 - off, progress := f },
        { page := page + 1, off := 0, len := off + len - 64, progress := g }]
     let o := exec (.hostRead (64 * page + off) len) s
     ((first = none ∧ s.copyLane page = none) ∨ (second = none ∧ s.copyLane (page + 1) = none) →
       SettlesTo o { s with answers := s.answers ++ [.fault .laneOffline] }) ∧
     (∀ x, first = some x → ∀ y, second = some y →
       SettlesTo o { s with answers := s.answers ++ [answerOf (x ++ y)] }) ∧
     (∀ x, first = some x → second = none → ∀ m, s.copyLane (page + 1) = some m →
       SettlesTo o { (s.post m (.hostRead true)) with port := reading (.taken x none) (.waiting m) }) ∧
     (first = none → ∀ l, s.copyLane page = some l → ∀ y, second = some y →
       SettlesTo o { (s.post l (.hostRead false)) with port := reading (.waiting l) (.taken y none) }) ∧
     (first = none → ∀ l, s.copyLane page = some l → second = none → ∀ m, s.copyLane (page + 1) = some m →
       SettlesTo o
         { ((s.post l (.hostRead false)).post m (.hostRead true)) with port := reading (.waiting l) (.waiting m) }))

/-- A byte of a read comes from the slot of the page with the greatest stamp among those whose valid flag for it is set,
with the poison of its codeword; where no slot of the page has the flag, no slot gives the byte. -/
def Obligations.ReadTakesNewestByte : Prop :=
  ∀ (s : State) (off k : Nat),
    (∀ sl, s.slot k = some sl → ∀ b, (sl.cells[off]?).join = some b →
      (∀ r ∈ s.slotsOf sl.page, r.1 ≠ k → ((r.2.cells[off]?).join).isSome = true → r.2.stamp < sl.stamp) →
      s.slotByte sl.page off = some { byte := b, poisoned := sl.poison.getLsbD (off / 8) }) ∧
    (∀ page, (∀ r ∈ s.slotsOf page, (r.2.cells[off]?).join = none) → s.slotByte page off = none)

/-! ## Timers and lanes -/

/-- The passing of a hold deadline seals an OPEN slot (the command names the slot whose deadline passes: log 3): whole, it
is SEALED at the tail of the queue; otherwise it is filled at once from an older complete slot of its page, with erased
bytes for an UNMAPPED page, or with poison where no source can be read, and a FILL_READ is posted for a copy on an ONLINE
lane. A slot that is not OPEN is left alone. Under the exhaustion condition a slot that reaches the queue is dropped, so
that case is left to its own statement. -/
def Obligations.HoldExpirySeals : Prop :=
  ∀ (s : State) (k : Nat), s.Quiet → k < 16 → s.exhaustion = false →
    ((s.slot k).all (fun sl => !sl.isOpen) = true → SettlesTo (exec (.holdTimerExpiry k) s) s) ∧
    (∀ sl, s.slot k = some sl → sl.isOpen = true →
      (sl.full = true →
        SettlesTo (exec (.holdTimerExpiry k) s)
          { s with
            slots := s.slots.set k (some { sl with phase := .sealed })
            commitQueue := s.commitQueue ++ [k] }) ∧
      (sl.full = false → ∀ older, s.olderComplete sl = some older →
        SettlesTo (exec (.holdTimerExpiry k) s)
          { s with
            slots := s.slots.set k (some (sl.filled older.image older.poison))
            commitQueue := s.commitQueue ++ [k] }) ∧
      (sl.full = false → s.olderComplete sl = none → s.entry sl.page = .unmapped →
        SettlesTo (exec (.holdTimerExpiry k) s)
          { s with
            slots := s.slots.set k (some (sl.filled (List.replicate 64 0xFF#8) 0#8))
            commitQueue := s.commitQueue ++ [k] }) ∧
      (sl.full = false → s.olderComplete sl = none → s.entry sl.page = .absent →
        SettlesTo (exec (.holdTimerExpiry k) s)
          { s with
            slots := s.slots.set k (some (sl.filled (List.replicate 64 0xFF#8) 0xFF#8))
            commitQueue := s.commitQueue ++ [k] }) ∧
      (sl.full = false → s.olderComplete sl = none → ∀ p q, s.entry sl.page = .mapped p q →
        ((s.lane p.lane).online = true →
          SettlesTo (exec (.holdTimerExpiry k) s)
            { (s.post p.lane (.fillRead k)) with
              slots := s.slots.set k (some { sl with phase := .filling }) }) ∧
        ((s.lane p.lane).online = false →
          SettlesTo (exec (.holdTimerExpiry k) s)
            { s with
              slots := s.slots.set k (some (sl.filled (List.replicate 64 0xFF#8) 0xFF#8))
              commitQueue := s.commitQueue ++ [k] })))

/-- An expiry of the interval timer starts it again and, with no patrol read outstanding, posts a PATROL_READ for the
patrol page and moves the cursor past it; the pass count advances when the cursor passes the end. With a read
outstanding, or with no page to read, nothing else changes (the timer field holds the interval: log 3). -/
def Obligations.PatrolExpiryPosts : Prop :=
  ∀ s : State, s.Quiet → s.timer.isSome = true →
    (s.patrolRead = none → ∀ r, s.patrolPage = some r →
      SettlesTo (exec .patrolTimerExpiry s)
        { (s.post r.2.lane .patrolRead) with
          timer := if s.cfg.patrolInterval = 0 then none else some s.cfg.patrolInterval
          patrolRead := some r
          cursor := if r.1 + 1 = s.cfg.capacity then 0 else r.1 + 1
          passCount := if r.1 + 1 = s.cfg.capacity ∨ r.1 < s.cursor then s.passCount + 1 else s.passCount }) ∧
    (s.patrolRead.isSome = true ∨ s.patrolPage = none →
      SettlesTo (exec .patrolTimerExpiry s)
        { s with timer := if s.cfg.patrolInterval = 0 then none else some s.cfg.patrolInterval })

/-- A time-out of a read, of a program or of a wait for ready takes its lane OFFLINE: no operation and no claim stays, the
pass-over count is 0, the LANE_OFFLINE notice with its cause is the first given, the lane's flag is set. In service the
map, the configuration and the counter stay, the space state is recomputed, no slot or queue entry is a MIGRATE slot bound
to the lane, and the other lane stays ONLINE as it was. A commit cut short has its target released and its slot back at the
head of the queue, or discarded where it was a MIGRATE slot; a record program, cut short or waiting, ends its command with
LANE_OFFLINE; a host read that only waited for this lane is answered FAULT LANE_OFFLINE; a fill read, cut short or waiting,
leaves its slot SEALED in the queue with what the host did not write poisoned; a patrol read leaves its record. Slots that
reach the queue stand there while the space state after the loss is not EXHAUSTED (log 37 for when it is). -/
def Obligations.TimeoutTakesLaneOffline : Prop :=
  ∀ (s : State) (l : LaneId), s.Quiet →
    (∀ i, s.readUnderWay l = some i → ∃ t, exec (.readTimeout l) s = .next t ∧ t.LostLane s l (some i) 1) ∧
    (∀ i, (s.lane l).programUnderWay = some i →
      ∃ t, exec (.programTimeout l) s = .next t ∧ t.LostLane s l (some i) 2) ∧
    (∀ page, s.readyWait l = some page → ∃ t, exec (.readyTimeout l) s = .next t ∧ t.LostLane s l page 3)

/-- Ready seen during a wait issues the operation that waits: a read has its transfer time running; a commit's program
starts with the copy's image and tag, a record program's with its record and a mark's with its mark, each with one more
program of the page and of the lane, and the last two at the counter's sequence. A record program or a mark that then finds
the counter spent makes no program (the model's reading: log 8), a mark that was granted before a REMOUNT starts in MOUNTING
with the counter and the cleared record as they stand (the model's choice: log 35), and ready seen on a lane with no operation leaves the state
as it is (the model's choice: log 2). -/
def Obligations.ReadySeenIssues : Prop :=
  ∀ (s : State) (l : LaneId), s.Quiet → (s.lane l).awaitReady = true →
    (∀ o, (s.lane l).op = some o →
      (o.isRead = true →
        SettlesTo (exec (.readySeen l) s) (s.modLane l (fun x => { x with ready := true, awaitReady := false }))) ∧
      (∀ r, o.commitOf = some r → ∀ sl, s.slot r.1 = some sl → r.2.1 < (s.lane l).pages.length →
        let old := s.page { lane := l, index := r.2.1 }
        SettlesTo (exec (.readySeen l) s)
          (s.modLane l (fun x =>
            { x with
              ready := false
              awaitReady := false
              programs := x.programs + 1
              pages := x.pages.set r.2.1 { old with wear := min (old.wear + 1) 16777215 }
              op := some (.commit r.1 .programming r.2.1 r.2.2 (pageImage sl.image
                { kind := sl.origin.kind, logical := sl.page, seq := r.2.2,
                  wear := min (old.wear + 1) 16777215, soft := old.soft, poison := sl.poison })) }))) ∧
      (∀ r, o.recordOf = some r → l = .a →
        let old := s.page { lane := .a, index := r.1 }
        let wear := min (old.wear + 1) 16777215
        let base := if s.longCmd = some .format then s.seq else r.2.2
        (s.seq < 0xFFFFFFFFFFFF → r.1 < s.laneA.pages.length →
          ∃ t, exec (.readySeen l) s = .next t ∧
            t.laneA.op = some (.record r.1 .programming r.2.1 base s.seq
              (recordImage s.geometry r.2.1 base s.seq wear)) ∧
            t.laneA.pages = s.laneA.pages.set r.1 { old with wear := wear } ∧ t.seq = s.seq + 1 ∧
            t.laneA.programs = s.laneA.programs + 1 ∧ t.laneA.awaitReady = false ∧
            t.cfg = s.cfg ∧ t.formatBase = s.formatBase ∧ t.newestRecord = s.newestRecord ∧ t.remap = s.remap ∧
            (s.mode ≠ .mounting → t.space = t.spaceNow)) ∧
        (0xFFFFFFFFFFFF ≤ s.seq → s.notices.length < 32 → ∀ c, s.longCmd = some c →
          SettlesTo (exec (.readySeen l) s)
            { ((s.idled .a).modLane .a (fun x => { x with ready := true })) with
              longCmd := none
              notices := s.notices ++ [s.doneBy c 2 none] })) ∧
      (∀ i, o.markPage = some i →
        let old := s.page { lane := l, index := i }
        let wear := min (old.wear + 1) 16777215
        (s.seq < 0xFFFFFFFFFFFF → i < (s.lane l).pages.length →
          ∃ t, exec (.readySeen l) s = .next t ∧
            (t.lane l).op = some (.mark i (pageImage (List.replicate 64 0#8)
              { kind := 0x0C#8, logical := 0xFFFF, seq := s.seq, wear := wear, soft := old.soft, poison := 0 })) ∧
            (t.lane l).pages = (s.lane l).pages.set i { old with wear := wear } ∧ t.seq = s.seq + 1 ∧
            (t.lane l).programs = (s.lane l).programs + 1 ∧ (t.lane l).awaitReady = false ∧
            (t.lane l).markList = (s.lane l).markList ∧ t.remap = s.remap ∧ t.cfg = s.cfg ∧
            (s.mode ≠ .mounting → t.space = t.spaceNow)) ∧
        (0xFFFFFFFFFFFF ≤ s.seq →
          SettlesTo (exec (.readySeen l) s) ((s.idled l).modLane l (fun x => { x with ready := true }))))) ∧
    ((s.lane l).op = none → exec (.readySeen l) s = .next s)

/-! ## Grants -/

/-- The grant of a read claim takes the claim off its lane, counts against a waiting COMMIT where the claim is a host or
fill read, and reads the page the map then names when it is on the granted lane; while ready is not seen the read waits.
Where the page's source has changed, the grant of a host or fill read makes no read: its claim moves to the lane that now
holds the copy; a page that slots or erased bytes now give is taken whole, and a fill is done at once; a page of a host read
that has no source, or that a shrink removed, ends with FAULT LANE_OFFLINE or RANGE. A host read all of whose pages have
ended is answered, and a CORRECTED codeword of its other page then asks for relocation as that page's request gives (log 34
for a copy released meanwhile). A relocation entry or a patrol record that no longer holds ends there, and no operation is made. -/
def Obligations.ReadGrantsStart : Prop :=
  ∀ (s : State) (l : LaneId) (ready : Bool), s.Quiet →
    (∀ b, s.arbiter l = some (.hostRead b) → s.port.healthy = true → ∀ rp, s.readPage b = some rp →
      rp.page < s.cfg.capacity → (∃ i < rp.len, s.slotByte rp.page (rp.off + i) = none) →
      ∀ p q, s.entry rp.page = .mapped p q → p.lane = l →
        SettlesTo (exec (.hostReadGrant l ready) s)
          { (s.granted l (.hostRead b) ready (some (.read (.host b) rp.page p.index q))) with
            port := s.port.progressed b (.granted l
              ((List.range rp.len).map (fun i => s.slotByte rp.page (rp.off + i)))) }) ∧
    (∀ b, s.arbiter l = some (.hostRead b) → s.port.healthy = true → s.readPages ≤ 2 → ∀ rp, s.readPage b = some rp →
      let o := exec (.hostReadGrant l ready) s
      let g := s.granted l (.hostRead b) ready none
      let hand := s.bytesAtHand rp.page rp.off rp.len
      let other := s.readPage (!b)
      let ended := fun (v : State) (a : HostAnswer) =>
        let w : State := { v with port := .idle, answers := s.answers ++ [a] }
        other.elim w w.pageRequest
      (∀ cause, (cause = .range ∧ s.cfg.capacity ≤ rp.page) ∨
          (cause = .laneOffline ∧ rp.page < s.cfg.capacity ∧ hand = none ∧ s.copyLane rp.page = none) →
        (other.any ReadPage.onLane = false → SettlesTo o (ended g.withdrawHostReads (.fault cause))) ∧
        (other.any ReadPage.onLane = true →
          SettlesTo o { g.withdrawHostReads with port := s.port.progressed b (.failed cause) })) ∧
      (rp.page < s.cfg.capacity → ∀ x, hand = some x →
        (other.any ReadPage.open? = false →
          let y := (other.map ReadPage.bytes).getD []
          SettlesTo o (ended g (answerOf (if b then y ++ x else x ++ y)))) ∧
        (other.any ReadPage.open? = true →
          SettlesTo o { g with port := s.port.progressed b (.taken x none) })) ∧
      (rp.page < s.cfg.capacity → hand = none → ∀ m, s.copyLane rp.page = some m → m ≠ l →
        SettlesTo o { (g.post m (.hostRead b)) with port := s.port.progressed b (.waiting m) })) ∧
    (∀ k, s.arbiter l = some (.fillRead k) → ∀ sl, s.slot k = some sl → sl.full = false →
      s.olderComplete sl = none → ∀ p q, s.entry sl.page = .mapped p q → p.lane = l →
        SettlesTo (exec (.fillReadGrant l ready) s)
          (s.granted l (.fillRead k) ready (some (.read (.fill k) sl.page p.index q)))) ∧
    (∀ k, s.arbiter l = some (.fillRead k) → s.exhaustion = false → ∀ sl, s.slot k = some sl →
      let o := exec (.fillReadGrant l ready) s
      let g := s.granted l (.fillRead k) ready none
      let filled := fun (src : List Byte) (poison : BitVec 8) =>
        ({ g with
           slots := s.slots.set k (some (sl.filled src poison))
           commitQueue := s.commitQueue ++ [k] } : State)
      (sl.full = true → SettlesTo o (filled (List.replicate 64 0xFF#8) 0#8)) ∧
      (sl.full = false → ∀ older, s.olderComplete sl = some older → SettlesTo o (filled older.image older.poison)) ∧
      (sl.full = false → s.olderComplete sl = none →
        (s.entry sl.page = .unmapped → SettlesTo o (filled (List.replicate 64 0xFF#8) 0#8)) ∧
        (s.entry sl.page ≠ .unmapped → s.copyLane sl.page = none →
          SettlesTo o (filled (List.replicate 64 0xFF#8) 0xFF#8)) ∧
        (∀ m, s.copyLane sl.page = some m → m ≠ l → SettlesTo o (g.post m (.fillRead k))))) ∧
    (s.arbiter l = some .relocationRead → ∀ r, s.relocList.head? = some r → r.2.lane = l →
      (r.1 < s.cfg.capacity → s.hasSlot r.1 = false → ∀ p q, s.entry r.1 = .mapped p q → p = r.2 →
        SettlesTo (exec (.relocationReadGrant l ready) s)
          (s.granted l .relocationRead ready (some (.read .relocation r.1 r.2.index q)))) ∧
      (s.cfg.capacity ≤ r.1 ∨ s.hasSlot r.1 = true ∨ s.mappedAt r.1 r.2 = false →
        SettlesTo (exec (.relocationReadGrant l ready) s)
          { (s.granted l .relocationRead ready none) with relocList := s.relocList.tail })) ∧
    (s.arbiter l = some .patrolRead → ∀ r, s.patrolRead = some r → r.2.lane = l →
      (r.1 < s.cfg.capacity → s.hasSlot r.1 = false → ∀ p q, s.entry r.1 = .mapped p q → p = r.2 →
        SettlesTo (exec (.patrolReadGrant l ready) s)
          (s.granted l .patrolRead ready (some (.read .patrol r.1 r.2.index q)))) ∧
      (s.cfg.capacity ≤ r.1 ∨ s.hasSlot r.1 = true ∨ s.mappedAt r.1 r.2 = false →
        SettlesTo (exec (.patrolReadGrant l ready) s)
          { (s.granted l .patrolRead ready none) with patrolRead := none }))

/-- The grant of a COMMIT dispatches the first eligible slot: a HOST or RELOCATE slot to the first page of the lane's free
list, a MIGRATE slot that passes its test to the last. The page becomes TARGET of the slot's page, the slot PROGRAMMING
with the counter's sequence, the counter advances, the space state is recomputed; when ready is seen the program starts,
one more of the page and of the lane, with the slot's image, its check bytes and the tag of the table. A
MIGRATE slot that fails its test is discarded without a notice, and alone in the queue leaves the grant without a
program. -/
def Obligations.CommitGrantDispatches : Prop :=
  (∀ (s : State) (l : LaneId) (ready : Bool), s.Quiet → s.arbiter l = some .commit →
     ∀ k, s.commitQueue.find? (s.eligible l) = some k → ∀ sl, s.slot k = some sl →
       (sl.origin.targetLane.isSome = true → s.migrationTest l sl = true) →
       ∀ i, (if sl.origin.targetLane.isSome then (s.lane l).freeList.getLast? else (s.lane l).freeList.head?) = some i →
         i < (s.lane l).pages.length →
         let old := s.page { lane := l, index := i }
         let wear := min (old.wear + 1) 16777215
         ∃ t, exec (.commitGrant l ready) s = .next t ∧
           t.slots = s.slots.set k (some { sl with phase := .programming { lane := l, index := i } s.seq }) ∧
           t.commitQueue = s.commitQueue.erase k ∧ t.seq = s.seq + 1 ∧
           (t.lane l).freeList = (s.lane l).freeList.erase i ∧ (t.lane l).passOver = 0 ∧
           (t.lane l).pages = (s.lane l).pages.set i
             { state := .target sl.page, wear := if ready then wear else old.wear, soft := old.soft } ∧
           (t.lane l).awaitReady = !ready ∧
           (t.lane l).op = some (.commit k .programming i s.seq
             (if ready then
               pageImage sl.image
                 { kind := (match sl.origin with | .host => 0x01#8 | .relocate => 0x02#8 | .migrate _ => 0x03#8)
                   logical := sl.page, seq := s.seq, wear := wear, soft := old.soft, poison := sl.poison }
              else [])) ∧
           (t.lane l).programs = (s.lane l).programs + (if ready then 1 else 0) ∧
           t.space = t.spaceNow ∧ (t.space = s.space → t.notices = s.notices) ∧
           t.remap = s.remap ∧ t.cfg = s.cfg ∧ t.port = s.port ∧ t.answers = s.answers ∧ t.longCmd = s.longCmd ∧
           (t.lane l.other).pages = (s.lane l.other).pages ∧ (t.lane l.other).op = (s.lane l.other).op) ∧
  (∀ (s : State) (l : LaneId) (ready : Bool), s.Quiet → s.arbiter l = some .commit → s.longCmd = none →
     ∀ k, s.commitQueue.head? = some k → s.commitQueue = [k] → s.eligible l k = true →
     ∀ sl, s.slot k = some sl → sl.origin = .migrate l → s.migrationTest l sl = false →
       ∃ t, exec (.commitGrant l ready) s = .next t ∧ t.slots = s.slots.set k none ∧ t.commitQueue = [] ∧
         t.seq = s.seq ∧ t.notices = s.notices ∧ t.faults = s.faults ∧ (t.lane l).op = none ∧
         (t.lane l).pages = (s.lane l).pages ∧ (t.lane l).freeList = (s.lane l).freeList ∧ t.remap = s.remap)

/-- The grant of a RECORD_PROGRAM with ready seen programs the system page that does not hold the newest record: with the
configuration in force, SET_CAPACITY's new capacity or FORMAT's new base in its place, at the counter's sequence. With the
counter spent no program is made and the command ends with VERIFY_FAILED. The grant of a
MARK programs the head of the mark list with a retirement mark at the counter's sequence: data bytes 0, a RETIRED tag,
logical page 0xFFFF; the page stays RETIRED with its soft count. A grant whose ready is not seen waits. -/
def Obligations.RecordAndMarkGrantsProgram : Prop :=
  (∀ s : State, s.Quiet → s.arbiter .a = some .recordProgram →
     (s.seq < 0xFFFFFFFFFFFF → ∀ i, (if s.newestRecord = some 0 then 1 else 0) = i → i < s.laneA.pages.length →
       let old := s.page { lane := .a, index := i }
       let wear := min (old.wear + 1) 16777215
       let cfg := match s.longCmd with | some (.setCapacity n) => { s.cfg with capacity := n } | _ => s.cfg
       let base := if s.longCmd = some .format then s.seq else s.formatBase
       ∃ t, exec (.recordProgramGrant true) s = .next t ∧
         t.laneA.op = some (.record i .programming cfg base s.seq (recordImage s.geometry cfg base s.seq wear)) ∧
         t.laneA.pages = s.laneA.pages.set i { old with wear := wear } ∧ t.seq = s.seq + 1 ∧
         t.laneA.programs = s.laneA.programs + 1 ∧ t.laneA.awaitReady = false ∧
         t.cfg = s.cfg ∧ t.formatBase = s.formatBase ∧ t.newestRecord = s.newestRecord ∧ t.remap = s.remap) ∧
     (s.seq < 0xFFFFFFFFFFFF →
       ∃ t, exec (.recordProgramGrant false) s = .next t ∧ t.laneA.awaitReady = true ∧ t.seq = s.seq ∧
         t.laneA.pages = s.laneA.pages ∧ t.laneA.programs = s.laneA.programs ∧ t.longCmd = s.longCmd) ∧
     (0xFFFFFFFFFFFF ≤ s.seq → s.notices.length < 32 → ∀ c, s.longCmd = some c → ∀ ready : Bool,
       SettlesTo (exec (.recordProgramGrant ready) s)
         { (s.granted .a .recordProgram ready none) with
           longCmd := none
           notices := s.notices ++
             [{ kind := .commandDone, lane := none, index := none
                logical := (match c with | .setCapacity _ => some s.cfg.capacity | _ => none)
                detail := 256 * c.code + 2 }] })) ∧
  (∀ (s : State) (l : LaneId), s.Quiet → s.arbiter l = some .mark → s.seq < 0xFFFFFFFFFFFF →
     ∀ i, (s.lane l).markList.head? = some i →
       (i < (s.lane l).pages.length →
         let old := s.page { lane := l, index := i }
         let wear := min (old.wear + 1) 16777215
         ∃ t, exec (.markGrant l true) s = .next t ∧
           (t.lane l).op = some (.mark i (pageImage (List.replicate 64 0#8)
             { kind := 0x0C#8, logical := 0xFFFF, seq := s.seq, wear := wear, soft := old.soft, poison := 0 })) ∧
           (t.lane l).pages = (s.lane l).pages.set i { old with wear := wear } ∧ t.seq = s.seq + 1 ∧
           (t.lane l).programs = (s.lane l).programs + 1 ∧ (t.lane l).awaitReady = false ∧
           (t.lane l).markList = (s.lane l).markList ∧ t.remap = s.remap ∧ t.cfg = s.cfg) ∧
       SettlesTo (exec (.markGrant l false) s)
         (s.modLane l (fun x =>
           { x with claims := x.claims.erase .mark, ready := false, op := some (.mark i []), awaitReady := true })))

/-! ## Completions -/

/-- The end of a decoded read releases its lane, counts the CORRECTED and UNCORRECTABLE codewords, and gives one
UNCORRECTABLE notice with its flag when some codeword is UNCORRECTABLE; nothing else changes. Its detail holds the newly
lost codewords and those already poisoned, of which no codeword is both, or all ones after a tag failure. -/
def Obligations.ReadOutcomesCounted : Prop :=
  (∀ (bytes : List Byte) (n q : Nat), (decodeRead bytes n q).newlyLost &&& (decodeRead bytes n q).poisoned = 0) ∧
  ∀ (s : State) (l : LaneId) (n i : Nat) (d : Decoded),
    let u : State :=
      { (s.idled l) with
        stats :=
          { s.stats with
            corrected := s.stats.corrected + BitVec.ofNat 32 (d.outcomes.count .corrected)
            uncorrectable := s.stats.uncorrectable + BitVec.ofNat 32 (d.outcomes.count .uncorrectable) } }
    ((∀ o ∈ d.outcomes, o ≠ .uncorrectable) → s.readEnds l n i d = u) ∧
    (.uncorrectable ∈ d.outcomes → (s.readEnds l n i d).faults.uncorrectable = true) ∧
    (.uncorrectable ∈ d.outcomes → s.notices.length < 32 →
      s.readEnds l n i d =
        { u with
          notices := s.notices ++
            [{ kind := .uncorrectable, lane := some l, index := some i, logical := some n
               detail := if d.tag = .good then d.newlyLost.toNat + 256 * d.poisoned.toNat else 65535 }]
          faults := { s.faults with uncorrectable := true } })

/-- The read-back of a host read of one page answers the request: each byte from the slots where they gave it at the
grant and from the decoded copy otherwise, FAULT UNCORRECTABLE when one of them is poisoned. A CORRECTED codeword asks
for the page's relocation, once, while the list has room, and raises the soft count of the page read, unless that page is
FREE by then; that the request stands for a copy released meanwhile is the model's choice (log 34). A read whose outcome a REMOUNT discards releases its lane and does no
more. -/
def Obligations.HostReadAnswered : Prop :=
  (∀ (s : State) (l : LaneId) (bytes : List Byte), s.Quiet → bytes.length = 88 → (s.lane l).discard = true →
    ∀ r, (s.lane l).readOp = some r → ∀ b, r.1 = .host b →
      SettlesTo (exec (.hostReadDone l bytes) s) (s.idled l)) ∧
  ∀ (s : State) (l : LaneId) (bytes : List Byte), s.Quiet → bytes.length = 88 → (s.lane l).discard = false →
    ∀ r, (s.lane l).readOp = some r → r.1 = .host false → ∀ rp, s.port.single = some rp →
    ∀ g, rp.progress.slotsGave = some g →
      let d := s.decode bytes r.2.1 r.2.2.2
      let p : PPage := { lane := l, index := r.2.2.1 }
      let u := s.readEnds l r.2.1 r.2.2.1 d
      let got := (List.range rp.len).map (fun j => ((g[j]?).join).getD
        { byte := d.data.getD (rp.off + j) 0xFF#8, poisoned := d.outcome ((rp.off + j) / 8) == .uncorrectable })
      let v : State :=
        { u with
          port := .idle
          answers := s.answers ++ [if got.any (·.poisoned) then .fault .uncorrectable
                                   else .data (got.map (·.byte))] }
      SettlesTo (exec (.hostReadDone l bytes) s)
        (if .corrected ∈ d.outcomes ∧ s.hasSlot rp.page = false ∧ s.relocListed rp.page = false ∧
            s.relocList.length < 8
         then { (v.softened p) with
                relocList := s.relocList ++ [(rp.page, p)] }
         else v)

/-- The read-back of a fill read gives its slot the missing bytes, with the poison found, and seals it at the tail of the
queue; a CORRECTED codeword the slot does not wholly cover raises the soft count of the page read, unless it is FREE. A read whose outcome is
discarded releases its lane and does no more. -/
def Obligations.FillReadFills : Prop :=
  (∀ (s : State) (l : LaneId) (bytes : List Byte), s.Quiet → bytes.length = 88 → (s.lane l).discard = true →
    ∀ r, (s.lane l).readOp = some r → ∀ k, r.1.fillSlot = some k →
      SettlesTo (exec (.fillReadDone l bytes) s) (s.idled l)) ∧
  ∀ (s : State) (l : LaneId) (bytes : List Byte), s.Quiet → bytes.length = 88 → (s.lane l).discard = false →
    s.exhaustion = false →
    ∀ r, (s.lane l).readOp = some r → ∀ k, r.1.fillSlot = some k → ∀ sl, s.slot k = some sl →
      let d := s.decode bytes r.2.1 r.2.2.2
      let p : PPage := { lane := l, index := r.2.2.1 }
      let u := s.readEnds l r.2.1 r.2.2.1 d
      let uncovered := (List.range 8).any (fun i =>
        d.outcome i == .corrected && ((sl.cells.drop (8 * i)).take 8).any Option.isNone)
      let v := if uncovered then u.softened p else u
      SettlesTo (exec (.fillReadDone l bytes) s)
        { v with
          slots := s.slots.set k (some (sl.filled d.data d.poisonFound))
          commitQueue := s.commitQueue ++ [k] }

/-- The read-back of a relocation read stages the page as a RELOCATE slot with the poison found and the entry leaves the
list; an entry that no longer holds leaves it without a slot; where the pool refuses the slot the entry stays. A read whose
outcome a REMOUNT discards releases its lane and does no more. -/
def Obligations.RelocationReadStages : Prop :=
  (∀ (s : State) (l : LaneId) (bytes : List Byte), s.Quiet → bytes.length = 88 → (s.lane l).discard = true →
    ∀ r, (s.lane l).readOp = some r → r.1 = .relocation →
      SettlesTo (exec (.relocationReadDone l bytes) s) (s.idled l)) ∧
  ∀ (s : State) (l : LaneId) (bytes : List Byte), s.Quiet → bytes.length = 88 → (s.lane l).discard = false →
    s.exhaustion = false →
    ∀ r, (s.lane l).readOp = some r → r.1 = .relocation →
      let d := s.decode bytes r.2.1 r.2.2.2
      let p : PPage := { lane := l, index := r.2.2.1 }
      let u := s.readEnds l r.2.1 r.2.2.1 d
      let list := if s.relocList.head? = some (r.2.1, p) then s.relocList.tail else s.relocList
      (s.cfg.capacity ≤ r.2.1 ∨ s.hasSlot r.2.1 = true ∨ s.mappedAt r.2.1 p = false →
        SettlesTo (exec (.relocationReadDone l bytes) s) { u with relocList := list }) ∧
      (r.2.1 < s.cfg.capacity → s.hasSlot r.2.1 = false → s.mappedAt r.2.1 p = true →
        (s.causes.any = false → 5 ≤ s.freeCount → ∀ k, s.firstFree = some k →
          SettlesTo (exec (.relocationReadDone l bytes) s)
            { (u.staged k r.2.1 .relocate d.data d.poisonFound) with relocList := list }) ∧
        (s.causes.any = true ∨ s.freeCount < 5 →
          SettlesTo (exec (.relocationReadDone l bytes) s) u ∧
          (s.mode ≠ .run ∨ s.freeCount < 5 →
            ∃ t, exec (.relocationReadDone l bytes) s = .next t ∧ t.relocList = s.relocList)))

/-- The read-back of a patrol read is judged by the first class that applies: no longer the page's copy, weakened, newly
lost, sound. A weakened or newly lost copy is staged as a RELOCATE slot, a sound one as a MIGRATE slot when a lane's most
worn FREE page passes the migration test; where the pool refuses, only a weakened copy asks for relocation. A read whose
outcome a REMOUNT discards leaves its record, releases its lane and does no more. -/
def Obligations.PatrolReadJudged : Prop :=
  (∀ (s : State) (l : LaneId) (bytes : List Byte), s.Quiet → bytes.length = 88 → (s.lane l).discard = true →
    ∀ r, (s.lane l).readOp = some r → r.1 = .patrol →
      SettlesTo (exec (.patrolReadDone l bytes) s) { (s.idled l) with patrolRead := none }) ∧
  ∀ (s : State) (l : LaneId) (bytes : List Byte), s.Quiet → bytes.length = 88 → (s.lane l).discard = false →
    s.exhaustion = false →
    ∀ r, (s.lane l).readOp = some r → r.1 = .patrol →
      let n := r.2.1
      let d := s.decode bytes n r.2.2.2
      let p : PPage := { lane := l, index := r.2.2.1 }
      let u : State := { (s.readEnds l n r.2.2.1 d) with patrolRead := none }
      let softer := u.softened p
      let room : Bool := !s.causes.any && decide (5 ≤ s.freeCount)
      let o := exec (.patrolReadDone l bytes) s
      (s.cfg.capacity ≤ n ∨ s.hasSlot n = true ∨ s.mappedAt n p = false → SettlesTo o u) ∧
      (n < s.cfg.capacity → s.hasSlot n = false → s.mappedAt n p = true →
        (.corrected ∈ d.outcomes →
          (room = true → ∀ k, s.firstFree = some k →
            SettlesTo o ((if s.relocListed n then u else softer).staged k n .relocate d.data d.poisonFound)) ∧
          (room = false →
            SettlesTo o (if s.relocListed n || decide (8 ≤ s.relocList.length) then u
                         else { softer with relocList := s.relocList ++ [(n, p)] }))) ∧
        (.corrected ∉ d.outcomes → d.tag ≠ .good ∨ d.newlyLost ≠ 0 →
          (room = true → ∀ k, s.firstFree = some k →
            SettlesTo o (u.staged k n .relocate d.data d.poisonFound)) ∧
          (room = false → SettlesTo o u)) ∧
        (.corrected ∉ d.outcomes → d.tag = .good → d.newlyLost = 0 →
          (room = true → ∀ k, s.firstFree = some k → ∀ m, s.migrationTarget p = some m →
            SettlesTo o (u.staged k n (.migrate m) d.data d.poisonFound)) ∧
          (room = false ∨ s.migrationTarget p = none → SettlesTo o u)))

/-- The end of a program is seen as ready: a commit and its slot turn to VERIFYING, a record program to its read-back, and
a mark is complete: its page leaves the head of the mark list and the lane is released. -/
def Obligations.ProgramsEnd : Prop :=
  ∀ s : State, s.Quiet →
    (∀ l : LaneId, ∀ r, (s.lane l).commitOp = some r → r.2.1 = .programming → ∀ sl, s.slot r.1 = some sl →
      SettlesTo (exec (.commitProgramDone l) s)
        { (s.modLane l (fun x =>
            { x with ready := true, op := some (.commit r.1 .verifying r.2.2.1 r.2.2.2.1 r.2.2.2.2) })) with
          slots := s.slots.set r.1 (some
            { sl with phase := .verifying { lane := l, index := r.2.2.1 } r.2.2.2.1 }) }) ∧
    (∀ r, s.laneA.recordOp = some r → r.2.1 = .programming →
      SettlesTo (exec .recordProgramDone s)
        { s with
          laneA :=
            { s.laneA with
              ready := true
              op := some (.record r.1 .verifying r.2.2.1 r.2.2.2.1 r.2.2.2.2.1 r.2.2.2.2.2) } }) ∧
    (∀ l : LaneId, ∀ i, (s.lane l).markOp = some i → (s.lane l).markList.head? = some i →
      SettlesTo (exec (.markProgramDone l) s)
        ((s.idled l).modLane l (fun x => { x with ready := true, markList := x.markList.tail })))

/-! ## Commits and records complete -/

/-- A commit whose read-back is the bytes programmed completes: the map takes the copy when its sequence is greater, the
copy that loses its place is released (FREE, or RETIRED at a limit), the space state is recomputed, the lane is released
and the slot is FREE. What its departure enables follows, where the space state is not EXHAUSTED then: the held answer, the
end of a drain, of a FLUSH or of a QUIESCE. That the COMMAND_DONE of either is the last of the step's notices is the model's
reading (log 13). -/
def Obligations.CommitCompletes : Prop :=
  ∀ (s : State) (l : LaneId), s.Quiet →
    ∀ r, (s.lane l).commitOp = some r → r.2.1 = .verifying → r.2.2.2.2.length = 88 →
    ∀ sl, s.slot r.1 = some sl → sl.page < s.remap.length → r.2.2.1 < (s.lane l).pages.length →
      let p : PPage := { lane := l, index := r.2.2.1 }
      let q := r.2.2.2.1
      ∃ t, exec (.commitVerifyDone l r.2.2.2.2) s = .next t ∧
        t.slot r.1 = none ∧ (t.lane l).op = none ∧ t.space = t.spaceNow ∧ t.seq = s.seq ∧ t.cfg = s.cfg ∧
        (t.space ≠ .exhausted → t.Departed s r.1 sl false) ∧
        (s.entry sl.page = .unmapped ∨ s.entry sl.page = .absent →
          t.remap = s.remap.set sl.page (.mapped p q) ∧ (t.page p) = { s.page p with state := .mapped sl.page }) ∧
        (∀ old oq, s.entry sl.page = .mapped old oq →
          (oq < q → old ≠ p → old.index < (s.lane old.lane).pages.length →
            t.remap = s.remap.set sl.page (.mapped p q) ∧ (t.page p) = { s.page p with state := .mapped sl.page } ∧
            t.page old = { s.page old with
                           state := if s.cfg.wearLimit ≤ (s.page old).wear ∨ s.cfg.softLimit ≤ (s.page old).soft
                                    then .retired else .free } ∧
            (sl.origin ≠ .host → s.notices.length + 3 ≤ 32 →
              { kind := (if sl.origin = .relocate then NoticeKind.relocated else NoticeKind.migrated)
                lane := some l, index := some r.2.2.1, logical := some sl.page
                detail := old.index + (match old.lane with | .a => 0 | .b => 32768) } ∈ t.notices)) ∧
          (q ≤ oq → t.remap = s.remap ∧
            t.page p = { s.page p with
                         state := if s.cfg.wearLimit ≤ (s.page p).wear ∨ s.cfg.softLimit ≤ (s.page p).soft
                                  then .retired else .free }))

/-- A commit whose read-back differs retires its target and counts and notes the failure; the slot returns to the head of
the queue for another attempt, and after the third failure it is dropped with COMMIT_LOST, with what its departure enables:
the held answer FAULT COMMIT_FAILED, the end of a drain, of a FLUSH with SOME_LOST or of a QUIESCE. That the COMMAND_DONE of
either is the last of the step's notices, after the COMMIT_LOST, is the model's reading (log 13; R168 lets two blocks append
in either order). The space state is not EXHAUSTED here: under the exhaustion condition the queue is dropped, which is its
own statement. -/
def Obligations.CommitVerifyFails : Prop :=
  ∀ (s : State) (l : LaneId) (bytes : List Byte), s.Quiet → bytes.length = 88 → s.space ≠ .exhausted →
    ∀ r, (s.lane l).commitOp = some r → r.2.1 = .verifying → bytes ≠ r.2.2.2.2 →
    ∀ sl, s.slot r.1 = some sl → r.2.2.1 < (s.lane l).pages.length →
      let p : PPage := { lane := l, index := r.2.2.1 }
      ∃ t, exec (.commitVerifyDone l bytes) s = .next t ∧
        (t.lane l).op = none ∧ t.page p = { s.page p with state := .retired } ∧ r.2.2.1 ∈ (t.lane l).markList ∧
        (t.lane l).freeList = (s.lane l).freeList ∧ t.remap = s.remap ∧ t.seq = s.seq ∧
        t.stats.verifyFailures = s.stats.verifyFailures + 1 ∧
        (s.notices.length < 32 → t.notices.take (s.notices.length + 1) = s.notices ++
          [{ kind := .verifyFailed, lane := some l, index := some r.2.2.1, logical := some sl.page
             detail := sl.attempts + 1 }]) ∧
        (sl.attempts + 1 < 3 →
          t.slots = s.slots.set r.1 (some { sl with phase := .sealed, attempts := sl.attempts + 1 }) ∧
          t.commitQueue = r.1 :: s.commitQueue ∧ t.answers = s.answers ∧ t.longCmd = s.longCmd) ∧
        (3 ≤ sl.attempts + 1 →
          t.slots = s.slots.set r.1 none ∧ t.commitQueue = s.commitQueue.erase r.1 ∧ t.faults.commitLost = true ∧
          t.Departed s r.1 sl true ∧
          (s.notices.length + 1 < 32 →
            { kind := .commitLost, lane := some l, index := some r.2.2.1, logical := some sl.page
              detail := 1 + 16 * (match sl.origin with | .host => 0 | .relocate => 1 | .migrate _ => 2) }
              ∈ t.notices))

/-- A record program whose read-back is the bytes programmed makes its page the newest record and ends its command OK:
SET_CAPACITY puts its capacity in force, keeping the entries below it, giving new ones as UNMAPPED and releasing the copies
of those it removes; FORMAT unmaps every page, releases every copy and puts the recorded base in force; the others change no
more. A copy released is FREE in its lane's list, or RETIRED on its mark list at a limit; a page that is no removed entry's
copy stays as it is. A read-back that differs ends the command, whichever it is, with VERIFY_FAILED and changes nothing
else. -/
def Obligations.RecordReadBackEnds : Prop :=
  ∀ s : State, s.Quiet → s.notices.length < 32 →
    ∀ r, s.laneA.recordOp = some r → r.2.1 = .verifying → ∀ c, s.longCmd = some c →
      (∀ bytes : List Byte, bytes.length = 88 → bytes ≠ r.2.2.2.2.2 →
        SettlesTo (exec (.recordReadBackDone bytes) s)
          { (s.idled .a) with longCmd := none, notices := s.notices ++ [s.doneBy c 2 (some r.1)] }) ∧
      (r.2.2.2.2.2.length = 88 →
        (c.capacity = none → c ≠ .format →
          SettlesTo (exec (.recordReadBackDone r.2.2.2.2.2) s)
            { (s.idled .a) with
              longCmd := none, newestRecord := some r.1, blank := false
              notices := s.notices ++ [s.doneBy c 0 (some r.1)] }) ∧
        (∀ n, c.capacity = some n → s.remap.length = s.cfg.capacity →
          ∃ t, exec (.recordReadBackDone r.2.2.2.2.2) s = .next t ∧
            t.cfg = { s.cfg with capacity := n } ∧ t.newestRecord = some r.1 ∧ t.blank = false ∧
            t.remap = s.remap.take n ++ List.replicate (n - s.cfg.capacity) .unmapped ∧
            t.cursor = (if n ≤ s.cursor then 0 else s.cursor) ∧ t.space = t.spaceNow ∧ t.longCmd = none ∧
            t.laneA.op = none ∧ t.slots = s.slots ∧ t.commitQueue = s.commitQueue ∧ t.seq = s.seq ∧
            (t.notices.length < 32 → t.notices.getLast? = some (t.doneBy c 0 (some r.1))) ∧
            t.Released s (List.range' n (s.cfg.capacity - n))) ∧
        (c = .format →
          ∃ t, exec (.recordReadBackDone r.2.2.2.2.2) s = .next t ∧
            t.cfg = s.cfg ∧ t.newestRecord = some r.1 ∧ t.blank = false ∧
            t.remap = List.replicate s.cfg.capacity .unmapped ∧ t.relocList = [] ∧
            t.formatBase = r.2.2.2.1 ∧ t.space = t.spaceNow ∧ t.longCmd = none ∧
            t.laneA.op = none ∧ t.slots = s.slots ∧ t.commitQueue = s.commitQueue ∧ t.seq = s.seq ∧
            (t.notices.length < 32 → t.notices.getLast? = some (t.doneBy c 0 (some r.1))) ∧
            t.Released s (List.range s.cfg.capacity)))

/-! ## The mount -/

/-- A lane's wait for ready ends when its device is seen ready and no operation from before the mount holds it; when the
last wait ends the system pages are read, lane A ONLINE, and otherwise the scan begins with the defaults. The two
system pages are read in turn, each giving its record where it holds a valid one; after the second the record of the
higher sequence is loaded, or the defaults, the map takes its length from the capacity, and the scan begins at A:0002 and
at B:0000. -/
def Obligations.MountReadsRecords : Prop :=
  (∀ (s : State) (l : LaneId), s.Quiet → (s.lane l).op = none →
     ∀ m, s.mount = some m → m.phase = .wait → (m.scan l).waiting = true →
       ((m.scan l.other).waiting = true →
         SettlesTo (exec (.mountWaitReady l) s)
           { (s.modLane l (fun x => { x with ready := true })) with
             mount := some (m.setScan l { m.scan l with waiting := false }) }) ∧
       ((m.scan l.other).waiting = false → s.laneA.online = true →
         SettlesTo (exec (.mountWaitReady l) s)
           { (s.modLane l (fun x => { x with ready := true })) with
             mount := some { (m.setScan l { m.scan l with waiting := false }) with phase := .record, sysPage := 0 } }) ∧
       ((m.scan l.other).waiting = false → s.laneA.online = false → m.found0 = none → m.found1 = none →
         s.laneB.online = true →
         SettlesTo (exec (.mountWaitReady l) s)
           { (s.modLane l (fun x => { x with ready := true })) with
             cfg := defaultCfg s.geometry
             formatBase := 0
             newestRecord := none
             blank := true
             remap := List.replicate s.geometry.defaultCapacity .unmapped
             mount := some
               { (m.setScan l { m.scan l with waiting := false }) with
                 phase := .scan
                 scanA := { (m.setScan l { m.scan l with waiting := false }).scanA with reading := none }
                 scanB := { (m.setScan l { m.scan l with waiting := false }).scanB with reading := some 0 } } })) ∧
  (∀ (s : State) (bytes : List Byte), s.Quiet → bytes.length = 88 → s.laneA.online = true →
     ∀ m, s.mount = some m → m.phase = .record →
       let found := foundRecord s.geometry bytes
       let wear := match readTag (tagBytes bytes) with | .good t => t.wear | _ => 0
       let seen := match readTag (tagBytes bytes) with
         | .good t => some (match m.seqHigh with | none => t.seq | some h => max h t.seq)
         | _ => m.seqHigh
       let u := s.setPage { lane := .a, index := m.sysPage } { state := .system, wear := wear, soft := 0 }
       (m.sysPage = 0 →
         SettlesTo (exec (.systemPageReadDone bytes) s)
           { u with mount := some { m with sysPage := 1, found0 := found, seqHigh := seen } }) ∧
       (m.sysPage = 1 →
         let chosen : Option (FoundRecord × Nat) := match m.found0, found with
           | some f, some g => if f.seq < g.seq then some (g, 1) else some (f, 0)
           | some f, none => some (f, 0)
           | none, some g => some (g, 1)
           | none, none => none
         let cfg := match chosen with | some f => f.1.cfg | none => defaultCfg s.geometry
         SettlesTo (exec (.systemPageReadDone bytes) s)
           { u with
             cfg := cfg
             formatBase := (match chosen with | some f => f.1.base | none => 0)
             newestRecord := chosen.map (·.2)
             blank := chosen.isNone
             remap := List.replicate cfg.capacity .unmapped
             mount := some
               { m with
                 found1 := found
                 seqHigh := seen
                 phase := .scan
                 scanA := { m.scanA with reading := some 2 }
                 scanB := { m.scanB with reading := if s.laneB.online then some 0 else none } } }))

/-- A page read in the scan, not the last of its lane and not on a kept mark list, is judged by its tag, takes the counts
of a tag whose CRC matches, and the scan goes on with the next index: BLANK pages leave no record; a wrong CRC, a SYSTEM
tag or an unknown kind is SUSPECT, with its notice; a copy at or above the capacity or older than the format base is
STALE; any other copy is a candidate, intact when no codeword whose poison flag is clear is UNCORRECTABLE. As a lane ends
its scan, by its last page or by its loss, while the other still reads, its SUSPECT pages whose CRC failed take the highest
wear read on it and soft count 0, and no other page changes (that their state is decided in phase CHOOSE: log 38). -/
def Obligations.ScanJudgesPage : Prop :=
  (∀ (s : State) (l : LaneId) (bytes : List Byte), s.Quiet → bytes.length = 88 → s.notices.length < 32 →
    ∀ m, s.mount = some m → m.phase = .scan → ∀ i, (m.scan l).reading = some i → i + 1 < s.geometry.pagesPerLane →
    i ∉ (s.lane l).markList →
      let p : PPage := { lane := l, index := i }
      let o := exec (.scanReadDone l bytes) s
      let blank : PageRec := { state := .free, wear := 0, soft := 0 }
      let onward := m.setScan l { m.scan l with reading := some (i + 1) }
      let note := fun (d : Nat) => ({ kind := .suspectPage, lane := some l, index := some i, logical := none
                                      detail := d } : Notice)
      (readTag (tagBytes bytes) = .blank → SettlesTo o { (s.setPage p blank) with mount := some onward }) ∧
      (readTag (tagBytes bytes) = .badCrc →
        SettlesTo o
          { (s.setPage p blank) with
            mount := some { onward with classed := m.classed ++ [{ page := p, cls := .suspect true }]
                                        suspectSeen := true }
            notices := s.notices ++ [note 1] }) ∧
      (∀ t, (readTag (tagBytes bytes)).tag? = some t →
        let further :=
          { m.setScan l { m.scan l with reading := some (i + 1), wearHigh := max (m.scan l).wearHigh t.wear } with
            seqHigh := some (match m.seqHigh with | none => t.seq | some h => max h t.seq) }
        let u := s.setPage p { state := .free, wear := t.wear, soft := t.soft }
        let intact := (List.range 8).all (fun j => t.poison.getLsbD j ||
          (decodeCodeword (codeword bytes j) (bytes.getD (64 + j) 0#8)).1 != .uncorrectable)
        (t.kind = 0x0E#8 →
          SettlesTo o
            { u with
              mount := some { further with classed := m.classed ++ [{ page := p, cls := .suspect false }]
                                           suspectSeen := true }
              notices := s.notices ++ [note 2] }) ∧
        (t.kind = 0x0C#8 →
          SettlesTo o
            { u with mount := some { further with classed := m.classed ++ [{ page := p, cls := .retired }] } }) ∧
        (t.kind = 0x01#8 ∨ t.kind = 0x02#8 ∨ t.kind = 0x03#8 →
          (s.cfg.capacity ≤ t.logical ∨ t.seq < s.formatBase →
            SettlesTo o
              { u with mount := some { further with classed := m.classed ++ [{ page := p, cls := .stale }] } }) ∧
          (t.logical < s.cfg.capacity → s.formatBase ≤ t.seq →
            SettlesTo o
              { u with
                mount := some
                  { further with
                    classed := m.classed ++ [{ page := p, cls := .candidate t.logical t.seq intact }] } })) ∧
        (t.kind ≠ 0x0E#8 → t.kind ≠ 0x0C#8 → t.kind ≠ 0x01#8 → t.kind ≠ 0x02#8 → t.kind ≠ 0x03#8 →
          SettlesTo o
            { u with
              mount := some { further with classed := m.classed ++ [{ page := p, cls := .suspect false }]
                                           suspectSeen := true }
              notices := s.notices ++ [note 3] }))) ∧
  (∀ (s : State) (l : LaneId) (bytes : List Byte), s.Quiet → bytes.length = 88 →
    ∀ m, s.mount = some m → m.phase = .scan → ∀ i, (m.scan l).reading = some i → s.geometry.pagesPerLane ≤ i + 1 →
    (m.scan l.other).reading.isSome = true →
      let p : PPage := { lane := l, index := i }
      let high := match readTag (tagBytes bytes) with
        | .good t => max (m.scan l).wearHigh t.wear
        | _ => (m.scan l).wearHigh
      ∃ t, exec (.scanReadDone l bytes) s = .next t ∧ t.mode = s.mode ∧
        t.mount.map (fun n => (n.scan l).reading) = some none ∧ t.SuspectsWorn s m l high (some p) ∧
        (readTag (tagBytes bytes) = .badCrc → i < (s.lane l).pages.length →
          t.page p = { state := .free, wear := high, soft := 0 })) ∧
  (∀ (s : State) (l : LaneId), s.Quiet → s.mode = .mounting → ∀ m, s.mount = some m → m.phase = .scan →
    (m.scan l).reading.isSome = true → (m.scan l.other).reading.isSome = true → ∀ i, s.readUnderWay l = some i →
      ∃ t, exec (.readTimeout l) s = .next t ∧ t.mode = .mounting ∧
        t.mount.map (fun n => (n.scan l).reading) = some none ∧ t.SuspectsWorn s m l (m.scan l).wearHigh none)

/-- Phase CHOOSE maps each logical page to the intact candidate of the highest sequence, or, where none is intact, to the
candidate of the highest sequence; a page with no candidate is UNMAPPED, or ABSENT while a present lane is OFFLINE. Where
each page was classified once, the chosen copy is MAPPED with its owner, a page with a retirement mark is RETIRED, and a
stale page, a SUSPECT page and a candidate not chosen are RETIRED at a limit and FREE otherwise; a page on a kept mark list
is RETIRED, and a page without a class stays as it was. A candidate that is not intact and newer than every intact one
gives TORN_COPY with detail 1, and the newest where none is intact gives it with detail 2, each with MOUNT_TORN; where every
candidate is intact no notice is given. -/
def Obligations.ChooseTakesNewestIntact : Prop :=
  ∀ (s : State) (m : Mount), (s.choosePhase m).remap.length = s.cfg.capacity ∧
    (∀ n, n < s.cfg.capacity →
      ((∀ c ∈ m.classed, c.candidateFor n = none) →
        (s.choosePhase m).entry n = if s.anyOffline then .absent else .unmapped) ∧
      (∀ c ∈ m.classed, ∀ v, c.candidateFor n = some v →
        (∀ d ∈ m.classed, d ≠ c → (d.candidateFor n).all (fun r => r.2 != v.2 || decide (r.1 < v.1)) = true) →
        (v.2 = true ∨ ∀ d ∈ m.classed, (d.candidateFor n).all (fun r => !r.2) = true) →
        (s.choosePhase m).entry n = .mapped c.page v.1)) ∧
    ((m.classed.map (·.page)).Nodup →
      ∀ c ∈ m.classed, c.page.index < (s.lane c.page.lane).pages.length →
        c.page.index ∉ (s.lane c.page.lane).markList →
        let r := s.page c.page
        let after := (s.choosePhase m).page c.page
        (c.cls = .retired → after = { r with state := .retired }) ∧
        (c.cls = .stale ∨ c.cls = .suspect true ∨ c.cls = .suspect false → after = s.released r) ∧
        (∀ n v, c.candidateFor n = some v →
          after = if n < s.cfg.capacity ∧ (s.choosePhase m).mappedAt n c.page = true
                  then { r with state := .mapped n } else s.released r)) ∧
    (∀ l, ∀ i ∈ (s.lane l).markList, i < (s.lane l).pages.length →
      ((s.choosePhase m).page { lane := l, index := i }).state = .retired) ∧
    (∀ p : PPage, p.index ∉ (s.lane p.lane).markList → (∀ c ∈ m.classed, c.page ≠ p) →
      (s.choosePhase m).page p = s.page p) ∧
    (s.notices.length + m.classed.length ≤ 32 → ∀ n, n < s.cfg.capacity →
      ∀ c ∈ m.classed, ∀ v, c.candidateFor n = some v → v.2 = false →
        let torn := fun (detail : Nat) => ({ kind := .tornCopy, lane := some c.page.lane, index := some c.page.index
                                             logical := some n, detail := detail } : Notice)
        ((∃ d ∈ m.classed, (d.candidateFor n).any (·.2) = true) →
          (∀ d ∈ m.classed, (d.candidateFor n).all (fun r => !r.2 || decide (r.1 < v.1)) = true) →
          torn 1 ∈ (s.choosePhase m).notices ∧ (s.choosePhase m).faults.mountTorn = true) ∧
        ((∀ d ∈ m.classed, (d.candidateFor n).all (fun r => !r.2) = true) →
          (∀ d ∈ m.classed, d ≠ c → (d.candidateFor n).all (fun r => decide (r.1 < v.1)) = true) →
          torn 2 ∈ (s.choosePhase m).notices ∧ (s.choosePhase m).faults.mountTorn = true)) ∧
    ((∀ c ∈ m.classed, ∀ n, n < s.cfg.capacity → (c.candidateFor n).all (·.2) = true) →
      (s.choosePhase m).notices = s.notices ∧ (s.choosePhase m).faults = s.faults)

/-- The last page of the scan ends the mount: the map has the capacity's length, each lane's free list holds exactly its
FREE pages in order of wear and index, the counter stands above every sequence found and at least at the format base, the
space state is recomputed, MOUNT_DONE is given, the mode follows the drain cause set and in RUN the interval timer
starts; a pending REMOUNT is complete. -/
def Obligations.MountEnds : Prop :=
  ∀ (s : State) (l : LaneId) (bytes : List Byte), s.Quiet → s.mode = .mounting → bytes.length = 88 →
    ∀ m, s.mount = some m → m.phase = .scan → ∀ i, (m.scan l).reading = some i →
    i + 1 = s.geometry.pagesPerLane → (m.scan l.other).reading = none →
      let high := match readTag (tagBytes bytes) with
        | .good t => some (match m.seqHigh with | none => t.seq | some h => max h t.seq)
        | _ => m.seqHigh
      ∃ t, exec (.scanReadDone l bytes) s = .next t ∧ t.mount = none ∧ t.cfg = s.cfg ∧
        t.remap.length = s.cfg.capacity ∧ t.slots = s.slots ∧
        t.mode = (if s.causes.any then (if s.allFree then .drained else .draining) else .run) ∧
        t.timer = (if s.causes.any then s.timer
                   else if s.cfg.patrolInterval = 0 then none else some s.cfg.patrolInterval) ∧
        t.seq = max (match high with | none => 0 | some h => min (h + 1) 0xFFFFFFFFFFFF) s.formatBase ∧
        t.space = t.spaceNow ∧ t.cursor = (if s.cfg.capacity ≤ s.cursor then 0 else s.cursor) ∧
        (s.longCmd = some .remount → t.longCmd = none) ∧ (s.longCmd ≠ some .remount → t.longCmd = s.longCmd) ∧
        (t.notices.length < 32 → t.notices.any (fun n => n.kind == .mountDone) = true) ∧
        ∀ x, ((t.lane x).freeList).Pairwise (fun a b => freeBefore (t.lane x).pages a b = true) ∧
          ∀ j, j ∈ (t.lane x).freeList ↔
            j < (t.lane x).pages.length ∧ (t.page { lane := x, index := j }).state = .free

/-! ## The maintenance port -/

/-- The six reporting commands are answered OK with their report in every mode, and change nothing but the answer; some
fields of the reports (the order and widths of the others are the model's reading: log 15). -/
def Obligations.ReportsAnswered : Prop :=
  (∀ s : State, s.Listening →
    SettlesTo (exec (.getStatus []) s) (s.replied 0x01 s.statusReport false) ∧
    SettlesTo (exec (.getConfig []) s) (s.replied 0x01 s.configReport false) ∧
    SettlesTo (exec (.getPools []) s) (s.replied 0x01 s.poolsReport false) ∧
    SettlesTo (exec (.getCounters []) s) (s.replied 0x01 s.countersReport false) ∧
    (∀ n, n < s.cfg.capacity → n < 65536 →
      SettlesTo (exec (.inspectLogical (beBytes 2 n)) s) (s.replied 0x01 (s.logicalReport n) false)) ∧
    (∀ i, i < s.geometry.pagesPerLane →
      SettlesTo (exec (.inspectPhysical (0x00#8 :: beBytes 2 i)) s)
        (s.replied 0x01 (s.physicalReport { lane := .a, index := i }) false) ∧
      (s.geometry.twoLanes = true →
        SettlesTo (exec (.inspectPhysical (0x01#8 :: beBytes 2 i)) s)
          (s.replied 0x01 (s.physicalReport { lane := .b, index := i }) false)))) ∧
  (∀ s : State,
    s.statusReport.head? = some (match s.mode with
      | .mounting => 0x00#8 | .run => 0x01#8 | .draining => 0x02#8 | .drained => 0x03#8) ∧
    (s.configReport.drop 1).take 4 = beBytes 2 s.cfg.capacity ++ beBytes 2 s.cfg.holdTime ∧
    s.poolsReport.take 2 = beBytes 2 s.freeCount ∧
    s.countersReport.take 8 = beBytes 4 s.stats.hostWrites.toNat ++ beBytes 4 s.stats.merged.toNat ∧
    (∀ n p q, s.entry n = .mapped p q → (s.logicalReport n).take 10 =
      [0x01#8, (match p.lane with | .a => 0x00#8 | .b => 0x01#8)] ++ beBytes 2 p.index ++ beBytes 6 q) ∧
    (∀ p, (s.physicalReport p).take 6 =
      [(match (s.page p).state with
        | .system => 0x00#8 | .free => 0x01#8 | .mapped _ => 0x02#8 | .target _ => 0x03#8 | .retired => 0x04#8)] ++
        beBytes 3 (s.page p).wear ++ beBytes 2 (s.page p).soft))

/-- POP_NOTICE answers with the eight bytes of the oldest notice, which leaves the queue only when the last byte of the
answer is sent, or with no data when there is none; an answer abandoned before that by the end of the select period keeps
its notice. CLEAR_FAULTS clears the fault summary and the dropped count, but the flags whose condition stands are set. -/
def Obligations.NoticesAndFaults : Prop :=
  (∀ s : State, s.Listening → s.notices = [] → SettlesTo (exec (.popNotice []) s) (s.replied 0x01 [] false)) ∧
  (∀ s : State, s.Listening → ∀ n, s.notices.head? = some n →
    SettlesTo (exec (.popNotice []) s)
      (s.replied 0x01
        ([BitVec.ofNat 8 n.kind.code,
          (match n.lane with | some .a => 0x00#8 | some .b => 0x01#8 | none => 0xFF#8)] ++
          (match n.index with | some i => beBytes 2 i | none => [0xFF#8, 0xFF#8]) ++
          (match n.logical with | some k => beBytes 2 k | none => [0xFF#8, 0xFF#8]) ++ beBytes 2 n.detail) true)) ∧
  (∀ s : State, s.Quiet → ∀ frame, s.serial = .answering frame true →
    SettlesTo (exec .popNoticeSent s) { s with notices := s.notices.tail, serial := .spent } ∧
    exec .selectEnd s = .next { s with serial := .idle }) ∧
  (∀ s : State, s.Listening →
     SettlesTo (exec (.clearFaults []) s)
       (State.replied
         { s with
           dropped := 0
           faults :=
             { laneA := !s.laneA.online, laneB := s.geometry.twoLanes && !s.laneB.online
               spaceLow := s.space == .low, spaceExhausted := s.space == .exhausted
               commitLost := false, uncorrectable := false, overflow := false, mountTorn := false } }
         0x01 [] false))

/-- SET_PARAM with a value in range takes effect at once outside MOUNTING and is answered OK: the patrol interval sets the
timer anew in RUN and stops it when 0; the reserve floor recomputes the space state; a lowered wear limit retires every
FREE page at or above it and recomputes the space state; the others change their parameter alone.
SET_WINDOW replaces a window that is not SEALED at once and is answered OK; a SEALED window stays, with SEALED_CONFLICT. -/
def Obligations.ParametersAndWindowsSet : Prop :=
  (∀ (s : State) (n : Nat), s.Listening → s.mode ≠ .mounting →
     (n ≤ 60000 →
       SettlesTo (exec (.setHoldTime (beBytes 4 n)) s)
         (State.replied { s with cfg := { s.cfg with holdTime := n } } 0x01 [] false)) ∧
     (n ≤ 65535 →
       SettlesTo (exec (.setPatrolInterval (beBytes 4 n)) s)
         (State.replied
           { s with
             cfg := { s.cfg with patrolInterval := n }
             timer := if n = 0 then none else if s.mode = .run then some n else s.timer } 0x01 [] false)) ∧
     (n = 0 ∨ (16 ≤ n ∧ n ≤ 1000000) →
       SettlesTo (exec (.setMigrationThreshold (beBytes 4 n)) s)
         (State.replied { s with cfg := { s.cfg with migThreshold := n } } 0x01 [] false)) ∧
     (1 ≤ n → n ≤ 255 →
       SettlesTo (exec (.setSoftLimit (beBytes 4 n)) s)
         (State.replied { s with cfg := { s.cfg with softLimit := n } } 0x01 [] false)) ∧
     (1 ≤ n → n ≤ 100 →
       SettlesTo (exec (.setProgramTimeLimit (beBytes 4 n)) s)
         (State.replied { s with cfg := { s.cfg with progLimit := n } } 0x01 [] false)) ∧
     (n < 512 →
       SettlesTo (exec (.setAttentionMask (beBytes 4 n)) s)
         (State.replied { s with cfg := { s.cfg with attnMask := BitVec.ofNat 9 n } } 0x01 [] false)) ∧
     (2 ≤ n → n ≤ 64 →
       ∃ t, exec (.setReserveFloor (beBytes 4 n)) s = .next t ∧ t.cfg = { s.cfg with reserveFloor := n } ∧
         t.space = t.spaceNow ∧ t.serial = (s.replied 0x01 [] false).serial ∧ t.remap = s.remap ∧
         (t.space = s.space → s.exhaustion = false → t.notices = s.notices ∧ t.slots = s.slots)) ∧
     (1000 ≤ n → n ≤ 16000000 →
       (s.cfg.wearLimit ≤ n →
         SettlesTo (exec (.setWearLimit (beBytes 4 n)) s)
           (State.replied { s with cfg := { s.cfg with wearLimit := n } } 0x01 [] false)) ∧
       (n < s.cfg.wearLimit →
         ∃ t, exec (.setWearLimit (beBytes 4 n)) s = .next t ∧ t.cfg = { s.cfg with wearLimit := n } ∧
           t.space = t.spaceNow ∧ t.serial = (s.replied 0x01 [] false).serial ∧ t.remap = s.remap ∧
           ∀ l, (t.lane l).freeList =
               (s.lane l).freeList.filter (fun i => decide ((s.page { lane := l, index := i }).wear < n)) ∧
             ∀ i ∈ (s.lane l).freeList, n ≤ (s.page { lane := l, index := i }).wear →
               i < (s.lane l).pages.length →
               i ∈ (t.lane l).markList ∧
               t.page { lane := l, index := i } = { s.page { lane := l, index := i } with state := .retired }))) ∧
  (∀ (s : State) (n : Nat) (w : Window), s.Listening → n ≤ 3 → w.first < 65536 → w.last < 65536 →
    w.protection ≠ .sealed → (w.last < w.first ∨ w.last < s.cfg.capacity) →
    let ps : List Byte := BitVec.ofNat 8 n :: windowBytes w
    (s.mode ≠ .mounting → (s.cfg.windows[n]?).all (fun v => v.protection != .sealed) = true →
      SettlesTo (exec (.setWindow ps) s)
        (State.replied { s with cfg := { s.cfg with windows := s.cfg.windows.set n w } } 0x01 [] false)) ∧
    (s.mode ≠ .mounting → (s.cfg.windows[n]?).any (fun v => v.protection == .sealed) = true →
      exec (.setWindow ps) s = .next (s.replied 0x15 [] false)) ∧
    (s.mode = .mounting → exec (.setWindow ps) s = .next (s.replied 0x14 [] false)))

/-- RESUME takes MAINTENANCE out of the drain cause set and nothing else; where that empties the set outside MOUNTING, the
mode is RUN and the interval timer starts one interval ahead (the field holds the interval: log 3). While a QUIESCE, FORMAT
or SET_CAPACITY is pending it is answered BUSY and has no effect. -/
def Obligations.ResumeEndsMaintenance : Prop :=
  ∀ s : State, s.Listening →
    (∀ c, s.longCmd = some c → c = .quiesce ∨ c = .format ∨ c.capacity.isSome = true →
      exec (.resume []) s = .next (s.replied 0x13 [] false)) ∧
    (s.longCmd ≠ some .quiesce → s.longCmd ≠ some .format → s.longCmd.bind LongCmd.capacity = none →
      (s.mode ≠ .mounting → s.causes = { maintenance := true, power := false } →
        SettlesTo (exec (.resume []) s)
          (State.replied
            { s with
              causes := { maintenance := false, power := false }
              mode := .run
              timer := if s.cfg.patrolInterval = 0 then none else some s.cfg.patrolInterval } 0x01 [] false)) ∧
      (s.mode = .mounting ∨ s.causes.power = true ∨ s.causes.maintenance = false →
        SettlesTo (exec (.resume []) s)
          (State.replied { s with causes := { s.causes with maintenance := false } } 0x01 [] false)))

/-- The four commands that end in a record program are answered ACCEPTED, take the long-command slot and post their
RECORD_PROGRAM claim; SEAL_WINDOW seals its window at once. With lane A OFFLINE the command ends at once with LANE_OFFLINE.
SET_CAPACITY and FORMAT are taken only in DRAINED with MAINTENANCE in the drain cause set, and are answered WRONG_MODE
otherwise, with nothing else changed. -/
def Obligations.RecordCommandsAccepted : Prop :=
  ∀ s : State, s.Listening → s.longCmd = none → s.mode ≠ .mounting → s.notices.length < 32 →
    SettlesTo (exec (.saveConfig []) s) ((s.recordPosted .saveConfig).replied 0x02 [] false) ∧
    (∀ n, n ≤ 3 → ∀ w, s.cfg.windows[n]? = some w → w.first ≤ w.last →
      SettlesTo (exec (.sealWindow [BitVec.ofNat 8 n]) s)
        ((State.recordPosted
          { s with cfg := { s.cfg with windows := s.cfg.windows.set n { w with protection := .sealed } } }
          (.sealWindow n)).replied 0x02 [] false)) ∧
    (s.mode = .drained → s.causes.maintenance = true →
      (∀ n, 16 ≤ n → n ≤ s.geometry.maxCapacity → s.shrinkHitsSeal n = false →
        SettlesTo (exec (.setCapacity (beBytes 2 n)) s) ((s.recordPosted (.setCapacity n)).replied 0x02 [] false)) ∧
      (s.anySealed = false →
        SettlesTo (exec (.format []) s) ((s.recordPosted .format).replied 0x02 [] false))) ∧
    (s.mode ≠ .drained ∨ s.causes.maintenance = false →
      (∀ n, 16 ≤ n → n ≤ s.geometry.maxCapacity →
        exec (.setCapacity (beBytes 2 n)) s = .next (s.replied 0x14 [] false)) ∧
      exec (.format []) s = .next (s.replied 0x14 [] false))

/-- FLUSH seals every OPEN slot and marks every slot that is not FREE, and is complete at once when there is none. QUIESCE
adds MAINTENANCE to the drain cause set, which starts a drain and seals every OPEN slot where the set was empty, and is
complete when the mode is DRAINED. A sealed slot stands FILLING or SEALED with its page and bytes, and every other slot as it
was. REMOUNT, taken in DRAINED with MAINTENANCE in the set, begins a mount: the map, the page table and the free lists are
cleared, every present lane is ONLINE, the mark lists and the pool stay, a read or mark under way runs on with its outcome
discarded, and a read in progress at the host port is answered RETRY. Each is answered ACCEPTED. -/
def Obligations.DrainCommandsAccepted : Prop :=
  ∀ s : State, s.Listening → s.longCmd = none → s.mode ≠ .mounting →
    (s.anyFlushMark = false ∨ s.exhaustion = false →
      ∃ t, exec (.flush []) s = .next t ∧ t.serial = (s.replied 0x02 [] false).serial ∧ t.openSlots = [] ∧
        t.PoolSealed s (fun sl => { sl with flushMark := true }) ∧
        (s.exhaustion = false → t.port = s.port ∧ t.answers = s.answers ∧ t.stats = s.stats) ∧
        (s.allFree = true → s.notices.length < 32 → t.notices = s.notices ++ [s.doneBy (.flush false) 0 none]) ∧
        (s.exhaustion = false → s.allFree = false → t.notices = s.notices) ∧
        (∀ k, (t.slot k).all (fun sl => sl.flushMark) = true) ∧
        t.longCmd = (if t.allFree then none else some (.flush false)) ∧
        t.mode = (if s.mode = .draining ∧ s.causes.any = true ∧ t.allFree = true ∧ s.allFree = false
                  then .drained else s.mode) ∧
        t.causes = s.causes ∧ t.remap = s.remap ∧ t.cfg = s.cfg ∧ t.seq = s.seq) ∧
    (∃ t, exec (.quiesce []) s = .next t ∧ t.serial = (s.replied 0x02 [] false).serial ∧
      t.causes = { s.causes with maintenance := true } ∧
      (s.causes.any = false →
        t.openSlots = [] ∧ t.PoolSealed s (fun sl => sl) ∧
        t.mode = (if t.allFree then .drained else .draining) ∧ t.timer = none ∧
        (∀ l, .patrolRead ∉ (t.lane l).claims ∧ .relocationRead ∉ (t.lane l).claims)) ∧
      (s.causes.any = true → t.mode = s.mode ∧ t.slots = s.slots ∧ t.commitQueue = s.commitQueue ∧
        t.timer = s.timer) ∧
      (s.exhaustion = false → t.port = s.port ∧ t.answers = s.answers ∧ t.stats = s.stats ∧
        (t.mode = .drained → s.notices.length < 32 → t.notices = s.notices ++ [s.doneBy .quiesce 0 none]) ∧
        (t.mode ≠ .drained → t.notices = s.notices)) ∧
      t.longCmd = (if t.mode = .drained then none else some .quiesce) ∧
      t.remap = s.remap ∧ t.cfg = s.cfg ∧ t.seq = s.seq) ∧
    (s.mode = .drained → s.causes.maintenance = true →
      ∃ t, exec (.remount []) s = .next t ∧ t.serial = (s.replied 0x02 [] false).serial ∧
        t.mode = .mounting ∧ t.drainedLine = false ∧ t.mount = some (freshMount s.geometry) ∧
        t.remap = List.replicate s.cfg.capacity .unmapped ∧ t.relocList = [] ∧ t.timer = none ∧
        t.longCmd = some .remount ∧ t.causes = s.causes ∧ t.cfg = s.cfg ∧ t.space = s.space ∧
        (∀ p, t.page p = initialRecord p) ∧ t.slots = s.slots ∧ t.commitQueue = s.commitQueue ∧ t.seq = s.seq ∧
        ((∃ ps, s.port = .reading ps) → t.port = .idle ∧ t.answers = s.answers ++ [.retry]) ∧
        ((∀ ps, s.port ≠ .reading ps) → t.port = s.port ∧ t.answers = s.answers) ∧
        ∀ l, (t.lane l).online = s.geometry.has l ∧ (t.lane l).freeList = [] ∧ (t.lane l).claims = [] ∧
          (t.lane l).pages.length = (if s.geometry.has l then s.geometry.pagesPerLane else 0) ∧
          (t.lane l).passOver = 0 ∧ (t.lane l).programs = (s.lane l).programs ∧
          (∀ o, (s.lane l).op = some o → o.isRead = true ∨ o.markPage.isSome = true →
            (t.lane l).op = some o ∧ (t.lane l).awaitReady = (s.lane l).awaitReady ∧ (t.lane l).discard = true) ∧
          (t.lane l).markList = (s.lane l).markList)

/-- Frames that reach no command and commands turned away are answered with the first status that applies and change
nothing else: BAD_FRAME; UNKNOWN_COMMAND, INVALID for a SET_PARAM frame that names no parameter (it stands in that row by
the model's choice: log 16); INVALID for parameters of a wrong length or out of range, whichever the command; BUSY while a
long command is pending; WRONG_MODE in MOUNTING, and for SET_CAPACITY, FORMAT and REMOUNT outside DRAINED with MAINTENANCE;
SEALED_CONFLICT for FORMAT with a SEALED window and for SET_CAPACITY below a page one covers. A frame outside a select
period, a second one in it and a frame while RESET is asserted are not taken. A select period begins with no frame
in progress and its end leaves the port idle; the port drives 0x00 but for its answer frame. -/
def Obligations.FramesRefusedInOrder : Prop :=
  (∀ s : State, s.Listening →
    (∀ frame, frameWhole frame = true → frameBad frame = true →
      exec (.badFrame frame) s = .next (s.replied 0x10 [] false)) ∧
    (∀ code ps, ps.length ≤ 16 → frameCommand code ps = .unknownCommand code ps →
      exec (.unknownCommand code ps) s = .next (s.replied (if code = 0x09#8 then 0x12 else 0x11) [] false)) ∧
    (∀ ps : List Byte, ps.length ≤ 16 →
      (ps ≠ [] →
        ∀ c ∈ [Instr.getStatus ps, .getConfig ps, .getPools ps, .getCounters ps, .popNotice ps, .clearFaults ps,
            .resume ps, .saveConfig ps, .flush ps, .quiesce ps, .format ps, .remount ps],
          exec c s = .next (s.replied 0x12 [] false)) ∧
      (ps.length < 16 → ps.length ≠ 4 → ∀ row ∈ paramRows, exec (row.1 ps) s = .next (s.replied 0x12 [] false)) ∧
      (let first := beNat ((ps.drop 1).take 2)
       let last := beNat ((ps.drop 3).take 2)
       ps.length ≠ 7 ∨ 3 < (ps.getD 0 0#8).toNat ∨ 2 < (ps.getD 5 0#8).toNat ∨ 1 < (ps.getD 6 0#8).toNat ∨
           (first ≤ last ∧ s.cfg.capacity ≤ last) →
         exec (.setWindow ps) s = .next (s.replied 0x12 [] false)) ∧
      (ps.length ≠ 1 ∨ (s.cfg.windows[beNat ps]?).all (fun w => decide (w.last < w.first)) = true →
        exec (.sealWindow ps) s = .next (s.replied 0x12 [] false)) ∧
      (ps.length ≠ 2 ∨ beNat ps < 16 ∨ s.geometry.maxCapacity < beNat ps →
        exec (.setCapacity ps) s = .next (s.replied 0x12 [] false)) ∧
      (ps.length ≠ 2 ∨ s.cfg.capacity ≤ beNat ps →
        exec (.inspectLogical ps) s = .next (s.replied 0x12 [] false)) ∧
      (ps.length ≠ 3 ∨ (if s.geometry.twoLanes then 1 else 0) < (ps.getD 0 0#8).toNat ∨
          s.geometry.pagesPerLane ≤ beNat (ps.drop 1) →
        exec (.inspectPhysical ps) s = .next (s.replied 0x12 [] false))) ∧
    (∀ n < 2 ^ 32, ∀ row ∈ paramRows,
      (row.2 n = false → exec (row.1 (beBytes 4 n)) s = .next (s.replied 0x12 [] false)) ∧
      (row.2 n = true → s.mode = .mounting → exec (row.1 (beBytes 4 n)) s = .next (s.replied 0x14 [] false))) ∧
    (∀ n, 16 ≤ n → n ≤ s.geometry.maxCapacity →
      (s.longCmd.isSome = true →
        ∀ c ∈ [Instr.saveConfig [], .flush [], .quiesce [], .format [], .remount [], .setCapacity (beBytes 2 n)],
          exec c s = .next (s.replied 0x13 [] false)) ∧
      (s.longCmd = none → s.mode = .mounting →
        ∀ c ∈ [Instr.saveConfig [], .flush [], .quiesce [], .format [], .remount [], .setCapacity (beBytes 2 n)],
          exec c s = .next (s.replied 0x14 [] false)) ∧
      (s.longCmd = none → s.mode ≠ .drained ∨ s.causes.maintenance = false →
        ∀ c ∈ [Instr.format [], .remount [], .setCapacity (beBytes 2 n)],
          exec c s = .next (s.replied 0x14 [] false)) ∧
      (s.longCmd = none → s.mode = .drained → s.causes.maintenance = true →
        ∀ w ∈ s.cfg.windows, w.protection = .sealed → ∀ page, w.first ≤ page → page ≤ w.last → n ≤ page →
          page < s.cfg.capacity → exec (.setCapacity (beBytes 2 n)) s = .next (s.replied 0x15 [] false))) ∧
    (∀ n, n ≤ 3 → ∀ w, s.cfg.windows[n]? = some w → w.first ≤ w.last →
      (s.longCmd.isSome = true → exec (.sealWindow [BitVec.ofNat 8 n]) s = .next (s.replied 0x13 [] false)) ∧
      (s.longCmd = none → s.mode = .mounting →
        exec (.sealWindow [BitVec.ofNat 8 n]) s = .next (s.replied 0x14 [] false))) ∧
    (s.longCmd = none → s.mode = .drained → s.causes.maintenance = true → s.anySealed = true →
      exec (.format []) s = .next (s.replied 0x15 [] false))) ∧
  (∀ s : State, s.alive = false ∨ s.serial ≠ .receiving →
    ∀ frame, ∀ c, decodeFrame frame = some c → exec c s = .next s) ∧
  (∀ s : State, exec .selectEnd s = .next { s with serial := .idle } ∧
    (s.powered = true → s.serial = .idle → exec .selectStart s = .next { s with serial := .receiving })) ∧
  (∀ (s : State) (ready n : Nat),
    (∀ frame popping, s.serial = .answering frame popping → s.alive = true →
      (n < ready → s.sdo ready n = 0x00#8) ∧
      (n < frame.length → frame[n]? = some (s.sdo ready (ready + n))) ∧
      s.sdo ready (ready + frame.length + n) = 0x00#8) ∧
    ((s.alive = false ∨ s.serial = .idle ∨ s.serial = .receiving ∨ s.serial = .spent) → s.sdo ready n = 0x00#8))
end

