-- ==== Sys2Proof/Laws/State.lean ====
section
/-! SUPPORT. The fields of the state after each named update: one lemma per field, true by rfl, so that no proof
unfolds a record update. -/

namespace Sys2Proof.Machine

variable (s : State)

/-! ### Lanes by name -/

@[simp] theorem State.lane_a : s.lane .a = s.laneA := rfl
@[simp] theorem State.lane_b : s.lane .b = s.laneB := rfl
@[simp] theorem State.setLane_laneA_a (x : Lane) : (s.setLane .a x).laneA = x := rfl
@[simp] theorem State.setLane_laneB_a (x : Lane) : (s.setLane .a x).laneB = s.laneB := rfl
@[simp] theorem State.setLane_laneA_b (x : Lane) : (s.setLane .b x).laneA = s.laneA := rfl
@[simp] theorem State.setLane_laneB_b (x : Lane) : (s.setLane .b x).laneB = x := rfl
@[simp] theorem State.modLane_laneA_a (f : Lane → Lane) : (s.modLane .a f).laneA = f s.laneA := rfl
@[simp] theorem State.modLane_laneB_a (f : Lane → Lane) : (s.modLane .a f).laneB = s.laneB := rfl
@[simp] theorem State.modLane_laneA_b (f : Lane → Lane) : (s.modLane .b f).laneA = s.laneA := rfl
@[simp] theorem State.modLane_laneB_b (f : Lane → Lane) : (s.modLane .b f).laneB = f s.laneB := rfl

@[simp] theorem State.lane_setLane (l : LaneId) (x : Lane) : (s.setLane l x).lane l = x := by cases l <;> rfl
@[simp] theorem State.lane_setLane_other (l : LaneId) (x : Lane) : (s.setLane l x).lane l.other = s.lane l.other := by
  cases l <;> rfl
@[simp] theorem State.lane_modLane (l : LaneId) (f : Lane → Lane) : (s.modLane l f).lane l = f (s.lane l) := by
  cases l <;> rfl
@[simp] theorem State.lane_modLane_other (l : LaneId) (f : Lane → Lane) :
    (s.modLane l f).lane l.other = s.lane l.other := by cases l <;> rfl

/-! ### setLane -/

@[simp] theorem State.setLane_powered (l : LaneId) (x : Lane) : (s.setLane l x).powered = s.powered := rfl
@[simp] theorem State.setLane_pins (l : LaneId) (x : Lane) : (s.setLane l x).pins = s.pins := rfl
@[simp] theorem State.setLane_geometry (l : LaneId) (x : Lane) : (s.setLane l x).geometry = s.geometry := rfl
@[simp] theorem State.setLane_mode (l : LaneId) (x : Lane) : (s.setLane l x).mode = s.mode := rfl
@[simp] theorem State.setLane_causes (l : LaneId) (x : Lane) : (s.setLane l x).causes = s.causes := rfl
@[simp] theorem State.setLane_drainedLine (l : LaneId) (x : Lane) : (s.setLane l x).drainedLine = s.drainedLine := rfl
@[simp] theorem State.setLane_attn (l : LaneId) (x : Lane) : (s.setLane l x).attn = s.attn := rfl
@[simp] theorem State.setLane_mount (l : LaneId) (x : Lane) : (s.setLane l x).mount = s.mount := rfl
@[simp] theorem State.setLane_cfg (l : LaneId) (x : Lane) : (s.setLane l x).cfg = s.cfg := rfl
@[simp] theorem State.setLane_formatBase (l : LaneId) (x : Lane) : (s.setLane l x).formatBase = s.formatBase := rfl
@[simp] theorem State.setLane_newestRecord (l : LaneId) (x : Lane) : (s.setLane l x).newestRecord = s.newestRecord := rfl
@[simp] theorem State.setLane_blank (l : LaneId) (x : Lane) : (s.setLane l x).blank = s.blank := rfl
@[simp] theorem State.setLane_wprotSampled (l : LaneId) (x : Lane) : (s.setLane l x).wprotSampled = s.wprotSampled := rfl
@[simp] theorem State.setLane_remap (l : LaneId) (x : Lane) : (s.setLane l x).remap = s.remap := rfl
@[simp] theorem State.setLane_seq (l : LaneId) (x : Lane) : (s.setLane l x).seq = s.seq := rfl
@[simp] theorem State.setLane_space (l : LaneId) (x : Lane) : (s.setLane l x).space = s.space := rfl
@[simp] theorem State.setLane_slots (l : LaneId) (x : Lane) : (s.setLane l x).slots = s.slots := rfl
@[simp] theorem State.setLane_commitQueue (l : LaneId) (x : Lane) : (s.setLane l x).commitQueue = s.commitQueue := rfl
@[simp] theorem State.setLane_nextStamp (l : LaneId) (x : Lane) : (s.setLane l x).nextStamp = s.nextStamp := rfl
@[simp] theorem State.setLane_port (l : LaneId) (x : Lane) : (s.setLane l x).port = s.port := rfl
@[simp] theorem State.setLane_link (l : LaneId) (x : Lane) : (s.setLane l x).link = s.link := rfl
@[simp] theorem State.setLane_answers (l : LaneId) (x : Lane) : (s.setLane l x).answers = s.answers := rfl
@[simp] theorem State.setLane_relocList (l : LaneId) (x : Lane) : (s.setLane l x).relocList = s.relocList := rfl
@[simp] theorem State.setLane_cursor (l : LaneId) (x : Lane) : (s.setLane l x).cursor = s.cursor := rfl
@[simp] theorem State.setLane_passCount (l : LaneId) (x : Lane) : (s.setLane l x).passCount = s.passCount := rfl
@[simp] theorem State.setLane_timer (l : LaneId) (x : Lane) : (s.setLane l x).timer = s.timer := rfl
@[simp] theorem State.setLane_patrolRead (l : LaneId) (x : Lane) : (s.setLane l x).patrolRead = s.patrolRead := rfl
@[simp] theorem State.setLane_serial (l : LaneId) (x : Lane) : (s.setLane l x).serial = s.serial := rfl
@[simp] theorem State.setLane_longCmd (l : LaneId) (x : Lane) : (s.setLane l x).longCmd = s.longCmd := rfl
@[simp] theorem State.setLane_notices (l : LaneId) (x : Lane) : (s.setLane l x).notices = s.notices := rfl
@[simp] theorem State.setLane_dropped (l : LaneId) (x : Lane) : (s.setLane l x).dropped = s.dropped := rfl
@[simp] theorem State.setLane_faults (l : LaneId) (x : Lane) : (s.setLane l x).faults = s.faults := rfl
@[simp] theorem State.setLane_stats (l : LaneId) (x : Lane) : (s.setLane l x).stats = s.stats := rfl
@[simp] theorem State.setLane_pending (l : LaneId) (x : Lane) : (s.setLane l x).pending = s.pending := rfl

/-! ### modLane -/

@[simp] theorem State.modLane_powered (l : LaneId) (f : Lane → Lane) : (s.modLane l f).powered = s.powered := rfl
@[simp] theorem State.modLane_pins (l : LaneId) (f : Lane → Lane) : (s.modLane l f).pins = s.pins := rfl
@[simp] theorem State.modLane_geometry (l : LaneId) (f : Lane → Lane) : (s.modLane l f).geometry = s.geometry := rfl
@[simp] theorem State.modLane_mode (l : LaneId) (f : Lane → Lane) : (s.modLane l f).mode = s.mode := rfl
@[simp] theorem State.modLane_causes (l : LaneId) (f : Lane → Lane) : (s.modLane l f).causes = s.causes := rfl
@[simp] theorem State.modLane_drainedLine (l : LaneId) (f : Lane → Lane) : (s.modLane l f).drainedLine = s.drainedLine := rfl
@[simp] theorem State.modLane_attn (l : LaneId) (f : Lane → Lane) : (s.modLane l f).attn = s.attn := rfl
@[simp] theorem State.modLane_mount (l : LaneId) (f : Lane → Lane) : (s.modLane l f).mount = s.mount := rfl
@[simp] theorem State.modLane_cfg (l : LaneId) (f : Lane → Lane) : (s.modLane l f).cfg = s.cfg := rfl
@[simp] theorem State.modLane_formatBase (l : LaneId) (f : Lane → Lane) : (s.modLane l f).formatBase = s.formatBase := rfl
@[simp] theorem State.modLane_newestRecord (l : LaneId) (f : Lane → Lane) : (s.modLane l f).newestRecord = s.newestRecord := rfl
@[simp] theorem State.modLane_blank (l : LaneId) (f : Lane → Lane) : (s.modLane l f).blank = s.blank := rfl
@[simp] theorem State.modLane_wprotSampled (l : LaneId) (f : Lane → Lane) : (s.modLane l f).wprotSampled = s.wprotSampled := rfl
@[simp] theorem State.modLane_remap (l : LaneId) (f : Lane → Lane) : (s.modLane l f).remap = s.remap := rfl
@[simp] theorem State.modLane_seq (l : LaneId) (f : Lane → Lane) : (s.modLane l f).seq = s.seq := rfl
@[simp] theorem State.modLane_space (l : LaneId) (f : Lane → Lane) : (s.modLane l f).space = s.space := rfl
@[simp] theorem State.modLane_slots (l : LaneId) (f : Lane → Lane) : (s.modLane l f).slots = s.slots := rfl
@[simp] theorem State.modLane_commitQueue (l : LaneId) (f : Lane → Lane) : (s.modLane l f).commitQueue = s.commitQueue := rfl
@[simp] theorem State.modLane_nextStamp (l : LaneId) (f : Lane → Lane) : (s.modLane l f).nextStamp = s.nextStamp := rfl
@[simp] theorem State.modLane_port (l : LaneId) (f : Lane → Lane) : (s.modLane l f).port = s.port := rfl
@[simp] theorem State.modLane_link (l : LaneId) (f : Lane → Lane) : (s.modLane l f).link = s.link := rfl
@[simp] theorem State.modLane_answers (l : LaneId) (f : Lane → Lane) : (s.modLane l f).answers = s.answers := rfl
@[simp] theorem State.modLane_relocList (l : LaneId) (f : Lane → Lane) : (s.modLane l f).relocList = s.relocList := rfl
@[simp] theorem State.modLane_cursor (l : LaneId) (f : Lane → Lane) : (s.modLane l f).cursor = s.cursor := rfl
@[simp] theorem State.modLane_passCount (l : LaneId) (f : Lane → Lane) : (s.modLane l f).passCount = s.passCount := rfl
@[simp] theorem State.modLane_timer (l : LaneId) (f : Lane → Lane) : (s.modLane l f).timer = s.timer := rfl
@[simp] theorem State.modLane_patrolRead (l : LaneId) (f : Lane → Lane) : (s.modLane l f).patrolRead = s.patrolRead := rfl
@[simp] theorem State.modLane_serial (l : LaneId) (f : Lane → Lane) : (s.modLane l f).serial = s.serial := rfl
@[simp] theorem State.modLane_longCmd (l : LaneId) (f : Lane → Lane) : (s.modLane l f).longCmd = s.longCmd := rfl
@[simp] theorem State.modLane_notices (l : LaneId) (f : Lane → Lane) : (s.modLane l f).notices = s.notices := rfl
@[simp] theorem State.modLane_dropped (l : LaneId) (f : Lane → Lane) : (s.modLane l f).dropped = s.dropped := rfl
@[simp] theorem State.modLane_faults (l : LaneId) (f : Lane → Lane) : (s.modLane l f).faults = s.faults := rfl
@[simp] theorem State.modLane_stats (l : LaneId) (f : Lane → Lane) : (s.modLane l f).stats = s.stats := rfl
@[simp] theorem State.modLane_pending (l : LaneId) (f : Lane → Lane) : (s.modLane l f).pending = s.pending := rfl

/-! ### setPage -/

@[simp] theorem State.setPage_powered (p : PPage) (r : PageRec) : (s.setPage p r).powered = s.powered := rfl
@[simp] theorem State.setPage_pins (p : PPage) (r : PageRec) : (s.setPage p r).pins = s.pins := rfl
@[simp] theorem State.setPage_geometry (p : PPage) (r : PageRec) : (s.setPage p r).geometry = s.geometry := rfl
@[simp] theorem State.setPage_mode (p : PPage) (r : PageRec) : (s.setPage p r).mode = s.mode := rfl
@[simp] theorem State.setPage_causes (p : PPage) (r : PageRec) : (s.setPage p r).causes = s.causes := rfl
@[simp] theorem State.setPage_drainedLine (p : PPage) (r : PageRec) : (s.setPage p r).drainedLine = s.drainedLine := rfl
@[simp] theorem State.setPage_attn (p : PPage) (r : PageRec) : (s.setPage p r).attn = s.attn := rfl
@[simp] theorem State.setPage_mount (p : PPage) (r : PageRec) : (s.setPage p r).mount = s.mount := rfl
@[simp] theorem State.setPage_cfg (p : PPage) (r : PageRec) : (s.setPage p r).cfg = s.cfg := rfl
@[simp] theorem State.setPage_formatBase (p : PPage) (r : PageRec) : (s.setPage p r).formatBase = s.formatBase := rfl
@[simp] theorem State.setPage_newestRecord (p : PPage) (r : PageRec) : (s.setPage p r).newestRecord = s.newestRecord := rfl
@[simp] theorem State.setPage_blank (p : PPage) (r : PageRec) : (s.setPage p r).blank = s.blank := rfl
@[simp] theorem State.setPage_wprotSampled (p : PPage) (r : PageRec) : (s.setPage p r).wprotSampled = s.wprotSampled := rfl
@[simp] theorem State.setPage_remap (p : PPage) (r : PageRec) : (s.setPage p r).remap = s.remap := rfl
@[simp] theorem State.setPage_seq (p : PPage) (r : PageRec) : (s.setPage p r).seq = s.seq := rfl
@[simp] theorem State.setPage_space (p : PPage) (r : PageRec) : (s.setPage p r).space = s.space := rfl
@[simp] theorem State.setPage_slots (p : PPage) (r : PageRec) : (s.setPage p r).slots = s.slots := rfl
@[simp] theorem State.setPage_commitQueue (p : PPage) (r : PageRec) : (s.setPage p r).commitQueue = s.commitQueue := rfl
@[simp] theorem State.setPage_nextStamp (p : PPage) (r : PageRec) : (s.setPage p r).nextStamp = s.nextStamp := rfl
@[simp] theorem State.setPage_port (p : PPage) (r : PageRec) : (s.setPage p r).port = s.port := rfl
@[simp] theorem State.setPage_link (p : PPage) (r : PageRec) : (s.setPage p r).link = s.link := rfl
@[simp] theorem State.setPage_answers (p : PPage) (r : PageRec) : (s.setPage p r).answers = s.answers := rfl
@[simp] theorem State.setPage_relocList (p : PPage) (r : PageRec) : (s.setPage p r).relocList = s.relocList := rfl
@[simp] theorem State.setPage_cursor (p : PPage) (r : PageRec) : (s.setPage p r).cursor = s.cursor := rfl
@[simp] theorem State.setPage_passCount (p : PPage) (r : PageRec) : (s.setPage p r).passCount = s.passCount := rfl
@[simp] theorem State.setPage_timer (p : PPage) (r : PageRec) : (s.setPage p r).timer = s.timer := rfl
@[simp] theorem State.setPage_patrolRead (p : PPage) (r : PageRec) : (s.setPage p r).patrolRead = s.patrolRead := rfl
@[simp] theorem State.setPage_serial (p : PPage) (r : PageRec) : (s.setPage p r).serial = s.serial := rfl
@[simp] theorem State.setPage_longCmd (p : PPage) (r : PageRec) : (s.setPage p r).longCmd = s.longCmd := rfl
@[simp] theorem State.setPage_notices (p : PPage) (r : PageRec) : (s.setPage p r).notices = s.notices := rfl
@[simp] theorem State.setPage_dropped (p : PPage) (r : PageRec) : (s.setPage p r).dropped = s.dropped := rfl
@[simp] theorem State.setPage_faults (p : PPage) (r : PageRec) : (s.setPage p r).faults = s.faults := rfl
@[simp] theorem State.setPage_stats (p : PPage) (r : PageRec) : (s.setPage p r).stats = s.stats := rfl
@[simp] theorem State.setPage_pending (p : PPage) (r : PageRec) : (s.setPage p r).pending = s.pending := rfl

/-! ### endOp -/

@[simp] theorem State.endOp_powered (l : LaneId) : (s.endOp l).powered = s.powered := rfl
@[simp] theorem State.endOp_pins (l : LaneId) : (s.endOp l).pins = s.pins := rfl
@[simp] theorem State.endOp_geometry (l : LaneId) : (s.endOp l).geometry = s.geometry := rfl
@[simp] theorem State.endOp_mode (l : LaneId) : (s.endOp l).mode = s.mode := rfl
@[simp] theorem State.endOp_causes (l : LaneId) : (s.endOp l).causes = s.causes := rfl
@[simp] theorem State.endOp_drainedLine (l : LaneId) : (s.endOp l).drainedLine = s.drainedLine := rfl
@[simp] theorem State.endOp_attn (l : LaneId) : (s.endOp l).attn = s.attn := rfl
@[simp] theorem State.endOp_mount (l : LaneId) : (s.endOp l).mount = s.mount := rfl
@[simp] theorem State.endOp_cfg (l : LaneId) : (s.endOp l).cfg = s.cfg := rfl
@[simp] theorem State.endOp_formatBase (l : LaneId) : (s.endOp l).formatBase = s.formatBase := rfl
@[simp] theorem State.endOp_newestRecord (l : LaneId) : (s.endOp l).newestRecord = s.newestRecord := rfl
@[simp] theorem State.endOp_blank (l : LaneId) : (s.endOp l).blank = s.blank := rfl
@[simp] theorem State.endOp_wprotSampled (l : LaneId) : (s.endOp l).wprotSampled = s.wprotSampled := rfl
@[simp] theorem State.endOp_remap (l : LaneId) : (s.endOp l).remap = s.remap := rfl
@[simp] theorem State.endOp_seq (l : LaneId) : (s.endOp l).seq = s.seq := rfl
@[simp] theorem State.endOp_space (l : LaneId) : (s.endOp l).space = s.space := rfl
@[simp] theorem State.endOp_slots (l : LaneId) : (s.endOp l).slots = s.slots := rfl
@[simp] theorem State.endOp_commitQueue (l : LaneId) : (s.endOp l).commitQueue = s.commitQueue := rfl
@[simp] theorem State.endOp_nextStamp (l : LaneId) : (s.endOp l).nextStamp = s.nextStamp := rfl
@[simp] theorem State.endOp_port (l : LaneId) : (s.endOp l).port = s.port := rfl
@[simp] theorem State.endOp_link (l : LaneId) : (s.endOp l).link = s.link := rfl
@[simp] theorem State.endOp_answers (l : LaneId) : (s.endOp l).answers = s.answers := rfl
@[simp] theorem State.endOp_relocList (l : LaneId) : (s.endOp l).relocList = s.relocList := rfl
@[simp] theorem State.endOp_cursor (l : LaneId) : (s.endOp l).cursor = s.cursor := rfl
@[simp] theorem State.endOp_passCount (l : LaneId) : (s.endOp l).passCount = s.passCount := rfl
@[simp] theorem State.endOp_timer (l : LaneId) : (s.endOp l).timer = s.timer := rfl
@[simp] theorem State.endOp_patrolRead (l : LaneId) : (s.endOp l).patrolRead = s.patrolRead := rfl
@[simp] theorem State.endOp_serial (l : LaneId) : (s.endOp l).serial = s.serial := rfl
@[simp] theorem State.endOp_longCmd (l : LaneId) : (s.endOp l).longCmd = s.longCmd := rfl
@[simp] theorem State.endOp_notices (l : LaneId) : (s.endOp l).notices = s.notices := rfl
@[simp] theorem State.endOp_dropped (l : LaneId) : (s.endOp l).dropped = s.dropped := rfl
@[simp] theorem State.endOp_faults (l : LaneId) : (s.endOp l).faults = s.faults := rfl
@[simp] theorem State.endOp_stats (l : LaneId) : (s.endOp l).stats = s.stats := rfl
@[simp] theorem State.endOp_pending (l : LaneId) : (s.endOp l).pending = s.pending := rfl

/-! ### post -/

@[simp] theorem State.post_powered (l : LaneId) (c : Claim) : (s.post l c).powered = s.powered := rfl
@[simp] theorem State.post_pins (l : LaneId) (c : Claim) : (s.post l c).pins = s.pins := rfl
@[simp] theorem State.post_geometry (l : LaneId) (c : Claim) : (s.post l c).geometry = s.geometry := rfl
@[simp] theorem State.post_mode (l : LaneId) (c : Claim) : (s.post l c).mode = s.mode := rfl
@[simp] theorem State.post_causes (l : LaneId) (c : Claim) : (s.post l c).causes = s.causes := rfl
@[simp] theorem State.post_drainedLine (l : LaneId) (c : Claim) : (s.post l c).drainedLine = s.drainedLine := rfl
@[simp] theorem State.post_attn (l : LaneId) (c : Claim) : (s.post l c).attn = s.attn := rfl
@[simp] theorem State.post_mount (l : LaneId) (c : Claim) : (s.post l c).mount = s.mount := rfl
@[simp] theorem State.post_cfg (l : LaneId) (c : Claim) : (s.post l c).cfg = s.cfg := rfl
@[simp] theorem State.post_formatBase (l : LaneId) (c : Claim) : (s.post l c).formatBase = s.formatBase := rfl
@[simp] theorem State.post_newestRecord (l : LaneId) (c : Claim) : (s.post l c).newestRecord = s.newestRecord := rfl
@[simp] theorem State.post_blank (l : LaneId) (c : Claim) : (s.post l c).blank = s.blank := rfl
@[simp] theorem State.post_wprotSampled (l : LaneId) (c : Claim) : (s.post l c).wprotSampled = s.wprotSampled := rfl
@[simp] theorem State.post_remap (l : LaneId) (c : Claim) : (s.post l c).remap = s.remap := rfl
@[simp] theorem State.post_seq (l : LaneId) (c : Claim) : (s.post l c).seq = s.seq := rfl
@[simp] theorem State.post_space (l : LaneId) (c : Claim) : (s.post l c).space = s.space := rfl
@[simp] theorem State.post_slots (l : LaneId) (c : Claim) : (s.post l c).slots = s.slots := rfl
@[simp] theorem State.post_commitQueue (l : LaneId) (c : Claim) : (s.post l c).commitQueue = s.commitQueue := rfl
@[simp] theorem State.post_nextStamp (l : LaneId) (c : Claim) : (s.post l c).nextStamp = s.nextStamp := rfl
@[simp] theorem State.post_port (l : LaneId) (c : Claim) : (s.post l c).port = s.port := rfl
@[simp] theorem State.post_link (l : LaneId) (c : Claim) : (s.post l c).link = s.link := rfl
@[simp] theorem State.post_answers (l : LaneId) (c : Claim) : (s.post l c).answers = s.answers := rfl
@[simp] theorem State.post_relocList (l : LaneId) (c : Claim) : (s.post l c).relocList = s.relocList := rfl
@[simp] theorem State.post_cursor (l : LaneId) (c : Claim) : (s.post l c).cursor = s.cursor := rfl
@[simp] theorem State.post_passCount (l : LaneId) (c : Claim) : (s.post l c).passCount = s.passCount := rfl
@[simp] theorem State.post_timer (l : LaneId) (c : Claim) : (s.post l c).timer = s.timer := rfl
@[simp] theorem State.post_patrolRead (l : LaneId) (c : Claim) : (s.post l c).patrolRead = s.patrolRead := rfl
@[simp] theorem State.post_serial (l : LaneId) (c : Claim) : (s.post l c).serial = s.serial := rfl
@[simp] theorem State.post_longCmd (l : LaneId) (c : Claim) : (s.post l c).longCmd = s.longCmd := rfl
@[simp] theorem State.post_notices (l : LaneId) (c : Claim) : (s.post l c).notices = s.notices := rfl
@[simp] theorem State.post_dropped (l : LaneId) (c : Claim) : (s.post l c).dropped = s.dropped := rfl
@[simp] theorem State.post_faults (l : LaneId) (c : Claim) : (s.post l c).faults = s.faults := rfl
@[simp] theorem State.post_stats (l : LaneId) (c : Claim) : (s.post l c).stats = s.stats := rfl
@[simp] theorem State.post_pending (l : LaneId) (c : Claim) : (s.post l c).pending = s.pending := rfl

/-! ### withdraw -/

@[simp] theorem State.withdraw_powered (l : LaneId) (c : Claim) : (s.withdraw l c).powered = s.powered := rfl
@[simp] theorem State.withdraw_pins (l : LaneId) (c : Claim) : (s.withdraw l c).pins = s.pins := rfl
@[simp] theorem State.withdraw_geometry (l : LaneId) (c : Claim) : (s.withdraw l c).geometry = s.geometry := rfl
@[simp] theorem State.withdraw_mode (l : LaneId) (c : Claim) : (s.withdraw l c).mode = s.mode := rfl
@[simp] theorem State.withdraw_causes (l : LaneId) (c : Claim) : (s.withdraw l c).causes = s.causes := rfl
@[simp] theorem State.withdraw_drainedLine (l : LaneId) (c : Claim) : (s.withdraw l c).drainedLine = s.drainedLine := rfl
@[simp] theorem State.withdraw_attn (l : LaneId) (c : Claim) : (s.withdraw l c).attn = s.attn := rfl
@[simp] theorem State.withdraw_mount (l : LaneId) (c : Claim) : (s.withdraw l c).mount = s.mount := rfl
@[simp] theorem State.withdraw_cfg (l : LaneId) (c : Claim) : (s.withdraw l c).cfg = s.cfg := rfl
@[simp] theorem State.withdraw_formatBase (l : LaneId) (c : Claim) : (s.withdraw l c).formatBase = s.formatBase := rfl
@[simp] theorem State.withdraw_newestRecord (l : LaneId) (c : Claim) : (s.withdraw l c).newestRecord = s.newestRecord := rfl
@[simp] theorem State.withdraw_blank (l : LaneId) (c : Claim) : (s.withdraw l c).blank = s.blank := rfl
@[simp] theorem State.withdraw_wprotSampled (l : LaneId) (c : Claim) : (s.withdraw l c).wprotSampled = s.wprotSampled := rfl
@[simp] theorem State.withdraw_remap (l : LaneId) (c : Claim) : (s.withdraw l c).remap = s.remap := rfl
@[simp] theorem State.withdraw_seq (l : LaneId) (c : Claim) : (s.withdraw l c).seq = s.seq := rfl
@[simp] theorem State.withdraw_space (l : LaneId) (c : Claim) : (s.withdraw l c).space = s.space := rfl
@[simp] theorem State.withdraw_slots (l : LaneId) (c : Claim) : (s.withdraw l c).slots = s.slots := rfl
@[simp] theorem State.withdraw_commitQueue (l : LaneId) (c : Claim) : (s.withdraw l c).commitQueue = s.commitQueue := rfl
@[simp] theorem State.withdraw_nextStamp (l : LaneId) (c : Claim) : (s.withdraw l c).nextStamp = s.nextStamp := rfl
@[simp] theorem State.withdraw_port (l : LaneId) (c : Claim) : (s.withdraw l c).port = s.port := rfl
@[simp] theorem State.withdraw_link (l : LaneId) (c : Claim) : (s.withdraw l c).link = s.link := rfl
@[simp] theorem State.withdraw_answers (l : LaneId) (c : Claim) : (s.withdraw l c).answers = s.answers := rfl
@[simp] theorem State.withdraw_relocList (l : LaneId) (c : Claim) : (s.withdraw l c).relocList = s.relocList := rfl
@[simp] theorem State.withdraw_cursor (l : LaneId) (c : Claim) : (s.withdraw l c).cursor = s.cursor := rfl
@[simp] theorem State.withdraw_passCount (l : LaneId) (c : Claim) : (s.withdraw l c).passCount = s.passCount := rfl
@[simp] theorem State.withdraw_timer (l : LaneId) (c : Claim) : (s.withdraw l c).timer = s.timer := rfl
@[simp] theorem State.withdraw_patrolRead (l : LaneId) (c : Claim) : (s.withdraw l c).patrolRead = s.patrolRead := rfl
@[simp] theorem State.withdraw_serial (l : LaneId) (c : Claim) : (s.withdraw l c).serial = s.serial := rfl
@[simp] theorem State.withdraw_longCmd (l : LaneId) (c : Claim) : (s.withdraw l c).longCmd = s.longCmd := rfl
@[simp] theorem State.withdraw_notices (l : LaneId) (c : Claim) : (s.withdraw l c).notices = s.notices := rfl
@[simp] theorem State.withdraw_dropped (l : LaneId) (c : Claim) : (s.withdraw l c).dropped = s.dropped := rfl
@[simp] theorem State.withdraw_faults (l : LaneId) (c : Claim) : (s.withdraw l c).faults = s.faults := rfl
@[simp] theorem State.withdraw_stats (l : LaneId) (c : Claim) : (s.withdraw l c).stats = s.stats := rfl
@[simp] theorem State.withdraw_pending (l : LaneId) (c : Claim) : (s.withdraw l c).pending = s.pending := rfl

/-! ### setSlot -/

@[simp] theorem State.setSlot_powered (k : Nat) (o : Option Slot) : (s.setSlot k o).powered = s.powered := rfl
@[simp] theorem State.setSlot_pins (k : Nat) (o : Option Slot) : (s.setSlot k o).pins = s.pins := rfl
@[simp] theorem State.setSlot_geometry (k : Nat) (o : Option Slot) : (s.setSlot k o).geometry = s.geometry := rfl
@[simp] theorem State.setSlot_mode (k : Nat) (o : Option Slot) : (s.setSlot k o).mode = s.mode := rfl
@[simp] theorem State.setSlot_causes (k : Nat) (o : Option Slot) : (s.setSlot k o).causes = s.causes := rfl
@[simp] theorem State.setSlot_drainedLine (k : Nat) (o : Option Slot) : (s.setSlot k o).drainedLine = s.drainedLine := rfl
@[simp] theorem State.setSlot_attn (k : Nat) (o : Option Slot) : (s.setSlot k o).attn = s.attn := rfl
@[simp] theorem State.setSlot_mount (k : Nat) (o : Option Slot) : (s.setSlot k o).mount = s.mount := rfl
@[simp] theorem State.setSlot_cfg (k : Nat) (o : Option Slot) : (s.setSlot k o).cfg = s.cfg := rfl
@[simp] theorem State.setSlot_formatBase (k : Nat) (o : Option Slot) : (s.setSlot k o).formatBase = s.formatBase := rfl
@[simp] theorem State.setSlot_newestRecord (k : Nat) (o : Option Slot) : (s.setSlot k o).newestRecord = s.newestRecord := rfl
@[simp] theorem State.setSlot_blank (k : Nat) (o : Option Slot) : (s.setSlot k o).blank = s.blank := rfl
@[simp] theorem State.setSlot_wprotSampled (k : Nat) (o : Option Slot) : (s.setSlot k o).wprotSampled = s.wprotSampled := rfl
@[simp] theorem State.setSlot_remap (k : Nat) (o : Option Slot) : (s.setSlot k o).remap = s.remap := rfl
@[simp] theorem State.setSlot_seq (k : Nat) (o : Option Slot) : (s.setSlot k o).seq = s.seq := rfl
@[simp] theorem State.setSlot_space (k : Nat) (o : Option Slot) : (s.setSlot k o).space = s.space := rfl
@[simp] theorem State.setSlot_laneA (k : Nat) (o : Option Slot) : (s.setSlot k o).laneA = s.laneA := rfl
@[simp] theorem State.setSlot_laneB (k : Nat) (o : Option Slot) : (s.setSlot k o).laneB = s.laneB := rfl
@[simp] theorem State.setSlot_commitQueue (k : Nat) (o : Option Slot) : (s.setSlot k o).commitQueue = s.commitQueue := rfl
@[simp] theorem State.setSlot_nextStamp (k : Nat) (o : Option Slot) : (s.setSlot k o).nextStamp = s.nextStamp := rfl
@[simp] theorem State.setSlot_port (k : Nat) (o : Option Slot) : (s.setSlot k o).port = s.port := rfl
@[simp] theorem State.setSlot_link (k : Nat) (o : Option Slot) : (s.setSlot k o).link = s.link := rfl
@[simp] theorem State.setSlot_answers (k : Nat) (o : Option Slot) : (s.setSlot k o).answers = s.answers := rfl
@[simp] theorem State.setSlot_relocList (k : Nat) (o : Option Slot) : (s.setSlot k o).relocList = s.relocList := rfl
@[simp] theorem State.setSlot_cursor (k : Nat) (o : Option Slot) : (s.setSlot k o).cursor = s.cursor := rfl
@[simp] theorem State.setSlot_passCount (k : Nat) (o : Option Slot) : (s.setSlot k o).passCount = s.passCount := rfl
@[simp] theorem State.setSlot_timer (k : Nat) (o : Option Slot) : (s.setSlot k o).timer = s.timer := rfl
@[simp] theorem State.setSlot_patrolRead (k : Nat) (o : Option Slot) : (s.setSlot k o).patrolRead = s.patrolRead := rfl
@[simp] theorem State.setSlot_serial (k : Nat) (o : Option Slot) : (s.setSlot k o).serial = s.serial := rfl
@[simp] theorem State.setSlot_longCmd (k : Nat) (o : Option Slot) : (s.setSlot k o).longCmd = s.longCmd := rfl
@[simp] theorem State.setSlot_notices (k : Nat) (o : Option Slot) : (s.setSlot k o).notices = s.notices := rfl
@[simp] theorem State.setSlot_dropped (k : Nat) (o : Option Slot) : (s.setSlot k o).dropped = s.dropped := rfl
@[simp] theorem State.setSlot_faults (k : Nat) (o : Option Slot) : (s.setSlot k o).faults = s.faults := rfl
@[simp] theorem State.setSlot_stats (k : Nat) (o : Option Slot) : (s.setSlot k o).stats = s.stats := rfl
@[simp] theorem State.setSlot_pending (k : Nat) (o : Option Slot) : (s.setSlot k o).pending = s.pending := rfl
@[simp] theorem State.setSlot_slots (k : Nat) (o : Option Slot) : (s.setSlot k o).slots = s.slots.set k o := rfl

/-! ### setEntry -/

@[simp] theorem State.setEntry_powered (n : Nat) (e : RemapEntry) : (s.setEntry n e).powered = s.powered := rfl
@[simp] theorem State.setEntry_pins (n : Nat) (e : RemapEntry) : (s.setEntry n e).pins = s.pins := rfl
@[simp] theorem State.setEntry_geometry (n : Nat) (e : RemapEntry) : (s.setEntry n e).geometry = s.geometry := rfl
@[simp] theorem State.setEntry_mode (n : Nat) (e : RemapEntry) : (s.setEntry n e).mode = s.mode := rfl
@[simp] theorem State.setEntry_causes (n : Nat) (e : RemapEntry) : (s.setEntry n e).causes = s.causes := rfl
@[simp] theorem State.setEntry_drainedLine (n : Nat) (e : RemapEntry) : (s.setEntry n e).drainedLine = s.drainedLine := rfl
@[simp] theorem State.setEntry_attn (n : Nat) (e : RemapEntry) : (s.setEntry n e).attn = s.attn := rfl
@[simp] theorem State.setEntry_mount (n : Nat) (e : RemapEntry) : (s.setEntry n e).mount = s.mount := rfl
@[simp] theorem State.setEntry_cfg (n : Nat) (e : RemapEntry) : (s.setEntry n e).cfg = s.cfg := rfl
@[simp] theorem State.setEntry_formatBase (n : Nat) (e : RemapEntry) : (s.setEntry n e).formatBase = s.formatBase := rfl
@[simp] theorem State.setEntry_newestRecord (n : Nat) (e : RemapEntry) : (s.setEntry n e).newestRecord = s.newestRecord := rfl
@[simp] theorem State.setEntry_blank (n : Nat) (e : RemapEntry) : (s.setEntry n e).blank = s.blank := rfl
@[simp] theorem State.setEntry_wprotSampled (n : Nat) (e : RemapEntry) : (s.setEntry n e).wprotSampled = s.wprotSampled := rfl
@[simp] theorem State.setEntry_seq (n : Nat) (e : RemapEntry) : (s.setEntry n e).seq = s.seq := rfl
@[simp] theorem State.setEntry_space (n : Nat) (e : RemapEntry) : (s.setEntry n e).space = s.space := rfl
@[simp] theorem State.setEntry_laneA (n : Nat) (e : RemapEntry) : (s.setEntry n e).laneA = s.laneA := rfl
@[simp] theorem State.setEntry_laneB (n : Nat) (e : RemapEntry) : (s.setEntry n e).laneB = s.laneB := rfl
@[simp] theorem State.setEntry_slots (n : Nat) (e : RemapEntry) : (s.setEntry n e).slots = s.slots := rfl
@[simp] theorem State.setEntry_commitQueue (n : Nat) (e : RemapEntry) : (s.setEntry n e).commitQueue = s.commitQueue := rfl
@[simp] theorem State.setEntry_nextStamp (n : Nat) (e : RemapEntry) : (s.setEntry n e).nextStamp = s.nextStamp := rfl
@[simp] theorem State.setEntry_port (n : Nat) (e : RemapEntry) : (s.setEntry n e).port = s.port := rfl
@[simp] theorem State.setEntry_link (n : Nat) (e : RemapEntry) : (s.setEntry n e).link = s.link := rfl
@[simp] theorem State.setEntry_answers (n : Nat) (e : RemapEntry) : (s.setEntry n e).answers = s.answers := rfl
@[simp] theorem State.setEntry_relocList (n : Nat) (e : RemapEntry) : (s.setEntry n e).relocList = s.relocList := rfl
@[simp] theorem State.setEntry_cursor (n : Nat) (e : RemapEntry) : (s.setEntry n e).cursor = s.cursor := rfl
@[simp] theorem State.setEntry_passCount (n : Nat) (e : RemapEntry) : (s.setEntry n e).passCount = s.passCount := rfl
@[simp] theorem State.setEntry_timer (n : Nat) (e : RemapEntry) : (s.setEntry n e).timer = s.timer := rfl
@[simp] theorem State.setEntry_patrolRead (n : Nat) (e : RemapEntry) : (s.setEntry n e).patrolRead = s.patrolRead := rfl
@[simp] theorem State.setEntry_serial (n : Nat) (e : RemapEntry) : (s.setEntry n e).serial = s.serial := rfl
@[simp] theorem State.setEntry_longCmd (n : Nat) (e : RemapEntry) : (s.setEntry n e).longCmd = s.longCmd := rfl
@[simp] theorem State.setEntry_notices (n : Nat) (e : RemapEntry) : (s.setEntry n e).notices = s.notices := rfl
@[simp] theorem State.setEntry_dropped (n : Nat) (e : RemapEntry) : (s.setEntry n e).dropped = s.dropped := rfl
@[simp] theorem State.setEntry_faults (n : Nat) (e : RemapEntry) : (s.setEntry n e).faults = s.faults := rfl
@[simp] theorem State.setEntry_stats (n : Nat) (e : RemapEntry) : (s.setEntry n e).stats = s.stats := rfl
@[simp] theorem State.setEntry_pending (n : Nat) (e : RemapEntry) : (s.setEntry n e).pending = s.pending := rfl
@[simp] theorem State.setEntry_remap (n : Nat) (e : RemapEntry) : (s.setEntry n e).remap = s.remap.set n e := rfl

/-! ### takeSeq -/

@[simp] theorem State.takeSeq_powered : s.takeSeq.powered = s.powered := rfl
@[simp] theorem State.takeSeq_pins : s.takeSeq.pins = s.pins := rfl
@[simp] theorem State.takeSeq_geometry : s.takeSeq.geometry = s.geometry := rfl
@[simp] theorem State.takeSeq_mode : s.takeSeq.mode = s.mode := rfl
@[simp] theorem State.takeSeq_causes : s.takeSeq.causes = s.causes := rfl
@[simp] theorem State.takeSeq_drainedLine : s.takeSeq.drainedLine = s.drainedLine := rfl
@[simp] theorem State.takeSeq_attn : s.takeSeq.attn = s.attn := rfl
@[simp] theorem State.takeSeq_mount : s.takeSeq.mount = s.mount := rfl
@[simp] theorem State.takeSeq_cfg : s.takeSeq.cfg = s.cfg := rfl
@[simp] theorem State.takeSeq_formatBase : s.takeSeq.formatBase = s.formatBase := rfl
@[simp] theorem State.takeSeq_newestRecord : s.takeSeq.newestRecord = s.newestRecord := rfl
@[simp] theorem State.takeSeq_blank : s.takeSeq.blank = s.blank := rfl
@[simp] theorem State.takeSeq_wprotSampled : s.takeSeq.wprotSampled = s.wprotSampled := rfl
@[simp] theorem State.takeSeq_remap : s.takeSeq.remap = s.remap := rfl
@[simp] theorem State.takeSeq_space : s.takeSeq.space = s.space := rfl
@[simp] theorem State.takeSeq_laneA : s.takeSeq.laneA = s.laneA := rfl
@[simp] theorem State.takeSeq_laneB : s.takeSeq.laneB = s.laneB := rfl
@[simp] theorem State.takeSeq_slots : s.takeSeq.slots = s.slots := rfl
@[simp] theorem State.takeSeq_commitQueue : s.takeSeq.commitQueue = s.commitQueue := rfl
@[simp] theorem State.takeSeq_nextStamp : s.takeSeq.nextStamp = s.nextStamp := rfl
@[simp] theorem State.takeSeq_port : s.takeSeq.port = s.port := rfl
@[simp] theorem State.takeSeq_link : s.takeSeq.link = s.link := rfl
@[simp] theorem State.takeSeq_answers : s.takeSeq.answers = s.answers := rfl
@[simp] theorem State.takeSeq_relocList : s.takeSeq.relocList = s.relocList := rfl
@[simp] theorem State.takeSeq_cursor : s.takeSeq.cursor = s.cursor := rfl
@[simp] theorem State.takeSeq_passCount : s.takeSeq.passCount = s.passCount := rfl
@[simp] theorem State.takeSeq_timer : s.takeSeq.timer = s.timer := rfl
@[simp] theorem State.takeSeq_patrolRead : s.takeSeq.patrolRead = s.patrolRead := rfl
@[simp] theorem State.takeSeq_serial : s.takeSeq.serial = s.serial := rfl
@[simp] theorem State.takeSeq_longCmd : s.takeSeq.longCmd = s.longCmd := rfl
@[simp] theorem State.takeSeq_notices : s.takeSeq.notices = s.notices := rfl
@[simp] theorem State.takeSeq_dropped : s.takeSeq.dropped = s.dropped := rfl
@[simp] theorem State.takeSeq_faults : s.takeSeq.faults = s.faults := rfl
@[simp] theorem State.takeSeq_stats : s.takeSeq.stats = s.stats := rfl
@[simp] theorem State.takeSeq_pending : s.takeSeq.pending = s.pending := rfl
@[simp] theorem State.takeSeq_seq : s.takeSeq.seq = s.seq + 1 := rfl

/-! ### give -/

@[simp] theorem State.give_powered (n : Notice) : (s.give n).powered = s.powered := rfl
@[simp] theorem State.give_pins (n : Notice) : (s.give n).pins = s.pins := rfl
@[simp] theorem State.give_geometry (n : Notice) : (s.give n).geometry = s.geometry := rfl
@[simp] theorem State.give_mode (n : Notice) : (s.give n).mode = s.mode := rfl
@[simp] theorem State.give_causes (n : Notice) : (s.give n).causes = s.causes := rfl
@[simp] theorem State.give_drainedLine (n : Notice) : (s.give n).drainedLine = s.drainedLine := rfl
@[simp] theorem State.give_attn (n : Notice) : (s.give n).attn = s.attn := rfl
@[simp] theorem State.give_mount (n : Notice) : (s.give n).mount = s.mount := rfl
@[simp] theorem State.give_cfg (n : Notice) : (s.give n).cfg = s.cfg := rfl
@[simp] theorem State.give_formatBase (n : Notice) : (s.give n).formatBase = s.formatBase := rfl
@[simp] theorem State.give_newestRecord (n : Notice) : (s.give n).newestRecord = s.newestRecord := rfl
@[simp] theorem State.give_blank (n : Notice) : (s.give n).blank = s.blank := rfl
@[simp] theorem State.give_wprotSampled (n : Notice) : (s.give n).wprotSampled = s.wprotSampled := rfl
@[simp] theorem State.give_remap (n : Notice) : (s.give n).remap = s.remap := rfl
@[simp] theorem State.give_seq (n : Notice) : (s.give n).seq = s.seq := rfl
@[simp] theorem State.give_space (n : Notice) : (s.give n).space = s.space := rfl
@[simp] theorem State.give_laneA (n : Notice) : (s.give n).laneA = s.laneA := rfl
@[simp] theorem State.give_laneB (n : Notice) : (s.give n).laneB = s.laneB := rfl
@[simp] theorem State.give_slots (n : Notice) : (s.give n).slots = s.slots := rfl
@[simp] theorem State.give_commitQueue (n : Notice) : (s.give n).commitQueue = s.commitQueue := rfl
@[simp] theorem State.give_nextStamp (n : Notice) : (s.give n).nextStamp = s.nextStamp := rfl
@[simp] theorem State.give_port (n : Notice) : (s.give n).port = s.port := rfl
@[simp] theorem State.give_link (n : Notice) : (s.give n).link = s.link := rfl
@[simp] theorem State.give_answers (n : Notice) : (s.give n).answers = s.answers := rfl
@[simp] theorem State.give_relocList (n : Notice) : (s.give n).relocList = s.relocList := rfl
@[simp] theorem State.give_cursor (n : Notice) : (s.give n).cursor = s.cursor := rfl
@[simp] theorem State.give_passCount (n : Notice) : (s.give n).passCount = s.passCount := rfl
@[simp] theorem State.give_timer (n : Notice) : (s.give n).timer = s.timer := rfl
@[simp] theorem State.give_patrolRead (n : Notice) : (s.give n).patrolRead = s.patrolRead := rfl
@[simp] theorem State.give_serial (n : Notice) : (s.give n).serial = s.serial := rfl
@[simp] theorem State.give_longCmd (n : Notice) : (s.give n).longCmd = s.longCmd := rfl
@[simp] theorem State.give_stats (n : Notice) : (s.give n).stats = s.stats := rfl
@[simp] theorem State.give_pending (n : Notice) : (s.give n).pending = s.pending := rfl

/-! ### flag -/

@[simp] theorem State.flag_powered (f : FaultFlags → FaultFlags) : (s.flag f).powered = s.powered := rfl
@[simp] theorem State.flag_pins (f : FaultFlags → FaultFlags) : (s.flag f).pins = s.pins := rfl
@[simp] theorem State.flag_geometry (f : FaultFlags → FaultFlags) : (s.flag f).geometry = s.geometry := rfl
@[simp] theorem State.flag_mode (f : FaultFlags → FaultFlags) : (s.flag f).mode = s.mode := rfl
@[simp] theorem State.flag_causes (f : FaultFlags → FaultFlags) : (s.flag f).causes = s.causes := rfl
@[simp] theorem State.flag_drainedLine (f : FaultFlags → FaultFlags) : (s.flag f).drainedLine = s.drainedLine := rfl
@[simp] theorem State.flag_attn (f : FaultFlags → FaultFlags) : (s.flag f).attn = s.attn := rfl
@[simp] theorem State.flag_mount (f : FaultFlags → FaultFlags) : (s.flag f).mount = s.mount := rfl
@[simp] theorem State.flag_cfg (f : FaultFlags → FaultFlags) : (s.flag f).cfg = s.cfg := rfl
@[simp] theorem State.flag_formatBase (f : FaultFlags → FaultFlags) : (s.flag f).formatBase = s.formatBase := rfl
@[simp] theorem State.flag_newestRecord (f : FaultFlags → FaultFlags) : (s.flag f).newestRecord = s.newestRecord := rfl
@[simp] theorem State.flag_blank (f : FaultFlags → FaultFlags) : (s.flag f).blank = s.blank := rfl
@[simp] theorem State.flag_wprotSampled (f : FaultFlags → FaultFlags) : (s.flag f).wprotSampled = s.wprotSampled := rfl
@[simp] theorem State.flag_remap (f : FaultFlags → FaultFlags) : (s.flag f).remap = s.remap := rfl
@[simp] theorem State.flag_seq (f : FaultFlags → FaultFlags) : (s.flag f).seq = s.seq := rfl
@[simp] theorem State.flag_space (f : FaultFlags → FaultFlags) : (s.flag f).space = s.space := rfl
@[simp] theorem State.flag_laneA (f : FaultFlags → FaultFlags) : (s.flag f).laneA = s.laneA := rfl
@[simp] theorem State.flag_laneB (f : FaultFlags → FaultFlags) : (s.flag f).laneB = s.laneB := rfl
@[simp] theorem State.flag_slots (f : FaultFlags → FaultFlags) : (s.flag f).slots = s.slots := rfl
@[simp] theorem State.flag_commitQueue (f : FaultFlags → FaultFlags) : (s.flag f).commitQueue = s.commitQueue := rfl
@[simp] theorem State.flag_nextStamp (f : FaultFlags → FaultFlags) : (s.flag f).nextStamp = s.nextStamp := rfl
@[simp] theorem State.flag_port (f : FaultFlags → FaultFlags) : (s.flag f).port = s.port := rfl
@[simp] theorem State.flag_link (f : FaultFlags → FaultFlags) : (s.flag f).link = s.link := rfl
@[simp] theorem State.flag_answers (f : FaultFlags → FaultFlags) : (s.flag f).answers = s.answers := rfl
@[simp] theorem State.flag_relocList (f : FaultFlags → FaultFlags) : (s.flag f).relocList = s.relocList := rfl
@[simp] theorem State.flag_cursor (f : FaultFlags → FaultFlags) : (s.flag f).cursor = s.cursor := rfl
@[simp] theorem State.flag_passCount (f : FaultFlags → FaultFlags) : (s.flag f).passCount = s.passCount := rfl
@[simp] theorem State.flag_timer (f : FaultFlags → FaultFlags) : (s.flag f).timer = s.timer := rfl
@[simp] theorem State.flag_patrolRead (f : FaultFlags → FaultFlags) : (s.flag f).patrolRead = s.patrolRead := rfl
@[simp] theorem State.flag_serial (f : FaultFlags → FaultFlags) : (s.flag f).serial = s.serial := rfl
@[simp] theorem State.flag_longCmd (f : FaultFlags → FaultFlags) : (s.flag f).longCmd = s.longCmd := rfl
@[simp] theorem State.flag_notices (f : FaultFlags → FaultFlags) : (s.flag f).notices = s.notices := rfl
@[simp] theorem State.flag_dropped (f : FaultFlags → FaultFlags) : (s.flag f).dropped = s.dropped := rfl
@[simp] theorem State.flag_stats (f : FaultFlags → FaultFlags) : (s.flag f).stats = s.stats := rfl
@[simp] theorem State.flag_pending (f : FaultFlags → FaultFlags) : (s.flag f).pending = s.pending := rfl
@[simp] theorem State.flag_faults (f : FaultFlags → FaultFlags) : (s.flag f).faults = f s.faults := rfl

/-! ### answer -/

@[simp] theorem State.answer_powered (a : HostAnswer) : (s.answer a).powered = s.powered := rfl
@[simp] theorem State.answer_pins (a : HostAnswer) : (s.answer a).pins = s.pins := rfl
@[simp] theorem State.answer_geometry (a : HostAnswer) : (s.answer a).geometry = s.geometry := rfl
@[simp] theorem State.answer_mode (a : HostAnswer) : (s.answer a).mode = s.mode := rfl
@[simp] theorem State.answer_causes (a : HostAnswer) : (s.answer a).causes = s.causes := rfl
@[simp] theorem State.answer_drainedLine (a : HostAnswer) : (s.answer a).drainedLine = s.drainedLine := rfl
@[simp] theorem State.answer_attn (a : HostAnswer) : (s.answer a).attn = s.attn := rfl
@[simp] theorem State.answer_mount (a : HostAnswer) : (s.answer a).mount = s.mount := rfl
@[simp] theorem State.answer_cfg (a : HostAnswer) : (s.answer a).cfg = s.cfg := rfl
@[simp] theorem State.answer_formatBase (a : HostAnswer) : (s.answer a).formatBase = s.formatBase := rfl
@[simp] theorem State.answer_newestRecord (a : HostAnswer) : (s.answer a).newestRecord = s.newestRecord := rfl
@[simp] theorem State.answer_blank (a : HostAnswer) : (s.answer a).blank = s.blank := rfl
@[simp] theorem State.answer_wprotSampled (a : HostAnswer) : (s.answer a).wprotSampled = s.wprotSampled := rfl
@[simp] theorem State.answer_remap (a : HostAnswer) : (s.answer a).remap = s.remap := rfl
@[simp] theorem State.answer_seq (a : HostAnswer) : (s.answer a).seq = s.seq := rfl
@[simp] theorem State.answer_space (a : HostAnswer) : (s.answer a).space = s.space := rfl
@[simp] theorem State.answer_laneA (a : HostAnswer) : (s.answer a).laneA = s.laneA := rfl
@[simp] theorem State.answer_laneB (a : HostAnswer) : (s.answer a).laneB = s.laneB := rfl
@[simp] theorem State.answer_slots (a : HostAnswer) : (s.answer a).slots = s.slots := rfl
@[simp] theorem State.answer_commitQueue (a : HostAnswer) : (s.answer a).commitQueue = s.commitQueue := rfl
@[simp] theorem State.answer_nextStamp (a : HostAnswer) : (s.answer a).nextStamp = s.nextStamp := rfl
@[simp] theorem State.answer_link (a : HostAnswer) : (s.answer a).link = s.link := rfl
@[simp] theorem State.answer_relocList (a : HostAnswer) : (s.answer a).relocList = s.relocList := rfl
@[simp] theorem State.answer_cursor (a : HostAnswer) : (s.answer a).cursor = s.cursor := rfl
@[simp] theorem State.answer_passCount (a : HostAnswer) : (s.answer a).passCount = s.passCount := rfl
@[simp] theorem State.answer_timer (a : HostAnswer) : (s.answer a).timer = s.timer := rfl
@[simp] theorem State.answer_patrolRead (a : HostAnswer) : (s.answer a).patrolRead = s.patrolRead := rfl
@[simp] theorem State.answer_serial (a : HostAnswer) : (s.answer a).serial = s.serial := rfl
@[simp] theorem State.answer_longCmd (a : HostAnswer) : (s.answer a).longCmd = s.longCmd := rfl
@[simp] theorem State.answer_notices (a : HostAnswer) : (s.answer a).notices = s.notices := rfl
@[simp] theorem State.answer_dropped (a : HostAnswer) : (s.answer a).dropped = s.dropped := rfl
@[simp] theorem State.answer_faults (a : HostAnswer) : (s.answer a).faults = s.faults := rfl
@[simp] theorem State.answer_pending (a : HostAnswer) : (s.answer a).pending = s.pending := rfl
@[simp] theorem State.answer_answers (a : HostAnswer) : (s.answer a).answers = s.answers ++ [a] := rfl
@[simp] theorem State.answer_port (a : HostAnswer) : (s.answer a).port = .idle := rfl

/-! ### setCfg -/

@[simp] theorem State.setCfg_powered (f : WorkCfg → WorkCfg) : (s.setCfg f).powered = s.powered := rfl
@[simp] theorem State.setCfg_pins (f : WorkCfg → WorkCfg) : (s.setCfg f).pins = s.pins := rfl
@[simp] theorem State.setCfg_geometry (f : WorkCfg → WorkCfg) : (s.setCfg f).geometry = s.geometry := rfl
@[simp] theorem State.setCfg_mode (f : WorkCfg → WorkCfg) : (s.setCfg f).mode = s.mode := rfl
@[simp] theorem State.setCfg_causes (f : WorkCfg → WorkCfg) : (s.setCfg f).causes = s.causes := rfl
@[simp] theorem State.setCfg_drainedLine (f : WorkCfg → WorkCfg) : (s.setCfg f).drainedLine = s.drainedLine := rfl
@[simp] theorem State.setCfg_attn (f : WorkCfg → WorkCfg) : (s.setCfg f).attn = s.attn := rfl
@[simp] theorem State.setCfg_mount (f : WorkCfg → WorkCfg) : (s.setCfg f).mount = s.mount := rfl
@[simp] theorem State.setCfg_formatBase (f : WorkCfg → WorkCfg) : (s.setCfg f).formatBase = s.formatBase := rfl
@[simp] theorem State.setCfg_newestRecord (f : WorkCfg → WorkCfg) : (s.setCfg f).newestRecord = s.newestRecord := rfl
@[simp] theorem State.setCfg_blank (f : WorkCfg → WorkCfg) : (s.setCfg f).blank = s.blank := rfl
@[simp] theorem State.setCfg_wprotSampled (f : WorkCfg → WorkCfg) : (s.setCfg f).wprotSampled = s.wprotSampled := rfl
@[simp] theorem State.setCfg_remap (f : WorkCfg → WorkCfg) : (s.setCfg f).remap = s.remap := rfl
@[simp] theorem State.setCfg_seq (f : WorkCfg → WorkCfg) : (s.setCfg f).seq = s.seq := rfl
@[simp] theorem State.setCfg_space (f : WorkCfg → WorkCfg) : (s.setCfg f).space = s.space := rfl
@[simp] theorem State.setCfg_laneA (f : WorkCfg → WorkCfg) : (s.setCfg f).laneA = s.laneA := rfl
@[simp] theorem State.setCfg_laneB (f : WorkCfg → WorkCfg) : (s.setCfg f).laneB = s.laneB := rfl
@[simp] theorem State.setCfg_slots (f : WorkCfg → WorkCfg) : (s.setCfg f).slots = s.slots := rfl
@[simp] theorem State.setCfg_commitQueue (f : WorkCfg → WorkCfg) : (s.setCfg f).commitQueue = s.commitQueue := rfl
@[simp] theorem State.setCfg_nextStamp (f : WorkCfg → WorkCfg) : (s.setCfg f).nextStamp = s.nextStamp := rfl
@[simp] theorem State.setCfg_port (f : WorkCfg → WorkCfg) : (s.setCfg f).port = s.port := rfl
@[simp] theorem State.setCfg_link (f : WorkCfg → WorkCfg) : (s.setCfg f).link = s.link := rfl
@[simp] theorem State.setCfg_answers (f : WorkCfg → WorkCfg) : (s.setCfg f).answers = s.answers := rfl
@[simp] theorem State.setCfg_relocList (f : WorkCfg → WorkCfg) : (s.setCfg f).relocList = s.relocList := rfl
@[simp] theorem State.setCfg_cursor (f : WorkCfg → WorkCfg) : (s.setCfg f).cursor = s.cursor := rfl
@[simp] theorem State.setCfg_passCount (f : WorkCfg → WorkCfg) : (s.setCfg f).passCount = s.passCount := rfl
@[simp] theorem State.setCfg_timer (f : WorkCfg → WorkCfg) : (s.setCfg f).timer = s.timer := rfl
@[simp] theorem State.setCfg_patrolRead (f : WorkCfg → WorkCfg) : (s.setCfg f).patrolRead = s.patrolRead := rfl
@[simp] theorem State.setCfg_serial (f : WorkCfg → WorkCfg) : (s.setCfg f).serial = s.serial := rfl
@[simp] theorem State.setCfg_longCmd (f : WorkCfg → WorkCfg) : (s.setCfg f).longCmd = s.longCmd := rfl
@[simp] theorem State.setCfg_notices (f : WorkCfg → WorkCfg) : (s.setCfg f).notices = s.notices := rfl
@[simp] theorem State.setCfg_dropped (f : WorkCfg → WorkCfg) : (s.setCfg f).dropped = s.dropped := rfl
@[simp] theorem State.setCfg_faults (f : WorkCfg → WorkCfg) : (s.setCfg f).faults = s.faults := rfl
@[simp] theorem State.setCfg_stats (f : WorkCfg → WorkCfg) : (s.setCfg f).stats = s.stats := rfl
@[simp] theorem State.setCfg_pending (f : WorkCfg → WorkCfg) : (s.setCfg f).pending = s.pending := rfl
@[simp] theorem State.setCfg_cfg (f : WorkCfg → WorkCfg) : (s.setCfg f).cfg = f s.cfg := rfl

/-! ### reply -/

@[simp] theorem State.reply_powered (status : Nat) (data : List Byte) (popping : Bool) : (s.reply status data popping).powered = s.powered := rfl
@[simp] theorem State.reply_pins (status : Nat) (data : List Byte) (popping : Bool) : (s.reply status data popping).pins = s.pins := rfl
@[simp] theorem State.reply_geometry (status : Nat) (data : List Byte) (popping : Bool) : (s.reply status data popping).geometry = s.geometry := rfl
@[simp] theorem State.reply_mode (status : Nat) (data : List Byte) (popping : Bool) : (s.reply status data popping).mode = s.mode := rfl
@[simp] theorem State.reply_causes (status : Nat) (data : List Byte) (popping : Bool) : (s.reply status data popping).causes = s.causes := rfl
@[simp] theorem State.reply_drainedLine (status : Nat) (data : List Byte) (popping : Bool) : (s.reply status data popping).drainedLine = s.drainedLine := rfl
@[simp] theorem State.reply_attn (status : Nat) (data : List Byte) (popping : Bool) : (s.reply status data popping).attn = s.attn := rfl
@[simp] theorem State.reply_mount (status : Nat) (data : List Byte) (popping : Bool) : (s.reply status data popping).mount = s.mount := rfl
@[simp] theorem State.reply_cfg (status : Nat) (data : List Byte) (popping : Bool) : (s.reply status data popping).cfg = s.cfg := rfl
@[simp] theorem State.reply_formatBase (status : Nat) (data : List Byte) (popping : Bool) : (s.reply status data popping).formatBase = s.formatBase := rfl
@[simp] theorem State.reply_newestRecord (status : Nat) (data : List Byte) (popping : Bool) : (s.reply status data popping).newestRecord = s.newestRecord := rfl
@[simp] theorem State.reply_blank (status : Nat) (data : List Byte) (popping : Bool) : (s.reply status data popping).blank = s.blank := rfl
@[simp] theorem State.reply_wprotSampled (status : Nat) (data : List Byte) (popping : Bool) : (s.reply status data popping).wprotSampled = s.wprotSampled := rfl
@[simp] theorem State.reply_remap (status : Nat) (data : List Byte) (popping : Bool) : (s.reply status data popping).remap = s.remap := rfl
@[simp] theorem State.reply_seq (status : Nat) (data : List Byte) (popping : Bool) : (s.reply status data popping).seq = s.seq := rfl
@[simp] theorem State.reply_space (status : Nat) (data : List Byte) (popping : Bool) : (s.reply status data popping).space = s.space := rfl
@[simp] theorem State.reply_laneA (status : Nat) (data : List Byte) (popping : Bool) : (s.reply status data popping).laneA = s.laneA := rfl
@[simp] theorem State.reply_laneB (status : Nat) (data : List Byte) (popping : Bool) : (s.reply status data popping).laneB = s.laneB := rfl
@[simp] theorem State.reply_slots (status : Nat) (data : List Byte) (popping : Bool) : (s.reply status data popping).slots = s.slots := rfl
@[simp] theorem State.reply_commitQueue (status : Nat) (data : List Byte) (popping : Bool) : (s.reply status data popping).commitQueue = s.commitQueue := rfl
@[simp] theorem State.reply_nextStamp (status : Nat) (data : List Byte) (popping : Bool) : (s.reply status data popping).nextStamp = s.nextStamp := rfl
@[simp] theorem State.reply_port (status : Nat) (data : List Byte) (popping : Bool) : (s.reply status data popping).port = s.port := rfl
@[simp] theorem State.reply_link (status : Nat) (data : List Byte) (popping : Bool) : (s.reply status data popping).link = s.link := rfl
@[simp] theorem State.reply_answers (status : Nat) (data : List Byte) (popping : Bool) : (s.reply status data popping).answers = s.answers := rfl
@[simp] theorem State.reply_relocList (status : Nat) (data : List Byte) (popping : Bool) : (s.reply status data popping).relocList = s.relocList := rfl
@[simp] theorem State.reply_cursor (status : Nat) (data : List Byte) (popping : Bool) : (s.reply status data popping).cursor = s.cursor := rfl
@[simp] theorem State.reply_passCount (status : Nat) (data : List Byte) (popping : Bool) : (s.reply status data popping).passCount = s.passCount := rfl
@[simp] theorem State.reply_timer (status : Nat) (data : List Byte) (popping : Bool) : (s.reply status data popping).timer = s.timer := rfl
@[simp] theorem State.reply_patrolRead (status : Nat) (data : List Byte) (popping : Bool) : (s.reply status data popping).patrolRead = s.patrolRead := rfl
@[simp] theorem State.reply_longCmd (status : Nat) (data : List Byte) (popping : Bool) : (s.reply status data popping).longCmd = s.longCmd := rfl
@[simp] theorem State.reply_notices (status : Nat) (data : List Byte) (popping : Bool) : (s.reply status data popping).notices = s.notices := rfl
@[simp] theorem State.reply_dropped (status : Nat) (data : List Byte) (popping : Bool) : (s.reply status data popping).dropped = s.dropped := rfl
@[simp] theorem State.reply_faults (status : Nat) (data : List Byte) (popping : Bool) : (s.reply status data popping).faults = s.faults := rfl
@[simp] theorem State.reply_stats (status : Nat) (data : List Byte) (popping : Bool) : (s.reply status data popping).stats = s.stats := rfl
@[simp] theorem State.reply_pending (status : Nat) (data : List Byte) (popping : Bool) : (s.reply status data popping).pending = s.pending := rfl
@[simp] theorem State.reply_serial (status : Nat) (data : List Byte) (popping : Bool) : (s.reply status data popping).serial = .answering (answerFrame status data) popping := rfl

/-! ### present -/

@[simp] theorem State.present_powered (r : HostRequest) : (s.present r).powered = s.powered := rfl
@[simp] theorem State.present_pins (r : HostRequest) : (s.present r).pins = s.pins := rfl
@[simp] theorem State.present_geometry (r : HostRequest) : (s.present r).geometry = s.geometry := rfl
@[simp] theorem State.present_mode (r : HostRequest) : (s.present r).mode = s.mode := rfl
@[simp] theorem State.present_causes (r : HostRequest) : (s.present r).causes = s.causes := rfl
@[simp] theorem State.present_drainedLine (r : HostRequest) : (s.present r).drainedLine = s.drainedLine := rfl
@[simp] theorem State.present_attn (r : HostRequest) : (s.present r).attn = s.attn := rfl
@[simp] theorem State.present_mount (r : HostRequest) : (s.present r).mount = s.mount := rfl
@[simp] theorem State.present_cfg (r : HostRequest) : (s.present r).cfg = s.cfg := rfl
@[simp] theorem State.present_formatBase (r : HostRequest) : (s.present r).formatBase = s.formatBase := rfl
@[simp] theorem State.present_newestRecord (r : HostRequest) : (s.present r).newestRecord = s.newestRecord := rfl
@[simp] theorem State.present_blank (r : HostRequest) : (s.present r).blank = s.blank := rfl
@[simp] theorem State.present_wprotSampled (r : HostRequest) : (s.present r).wprotSampled = s.wprotSampled := rfl
@[simp] theorem State.present_remap (r : HostRequest) : (s.present r).remap = s.remap := rfl
@[simp] theorem State.present_seq (r : HostRequest) : (s.present r).seq = s.seq := rfl
@[simp] theorem State.present_space (r : HostRequest) : (s.present r).space = s.space := rfl
@[simp] theorem State.present_laneA (r : HostRequest) : (s.present r).laneA = s.laneA := rfl
@[simp] theorem State.present_laneB (r : HostRequest) : (s.present r).laneB = s.laneB := rfl
@[simp] theorem State.present_slots (r : HostRequest) : (s.present r).slots = s.slots := rfl
@[simp] theorem State.present_commitQueue (r : HostRequest) : (s.present r).commitQueue = s.commitQueue := rfl
@[simp] theorem State.present_nextStamp (r : HostRequest) : (s.present r).nextStamp = s.nextStamp := rfl
@[simp] theorem State.present_port (r : HostRequest) : (s.present r).port = s.port := rfl
@[simp] theorem State.present_answers (r : HostRequest) : (s.present r).answers = s.answers := rfl
@[simp] theorem State.present_relocList (r : HostRequest) : (s.present r).relocList = s.relocList := rfl
@[simp] theorem State.present_cursor (r : HostRequest) : (s.present r).cursor = s.cursor := rfl
@[simp] theorem State.present_passCount (r : HostRequest) : (s.present r).passCount = s.passCount := rfl
@[simp] theorem State.present_timer (r : HostRequest) : (s.present r).timer = s.timer := rfl
@[simp] theorem State.present_patrolRead (r : HostRequest) : (s.present r).patrolRead = s.patrolRead := rfl
@[simp] theorem State.present_serial (r : HostRequest) : (s.present r).serial = s.serial := rfl
@[simp] theorem State.present_longCmd (r : HostRequest) : (s.present r).longCmd = s.longCmd := rfl
@[simp] theorem State.present_notices (r : HostRequest) : (s.present r).notices = s.notices := rfl
@[simp] theorem State.present_dropped (r : HostRequest) : (s.present r).dropped = s.dropped := rfl
@[simp] theorem State.present_faults (r : HostRequest) : (s.present r).faults = s.faults := rfl
@[simp] theorem State.present_stats (r : HostRequest) : (s.present r).stats = s.stats := rfl
@[simp] theorem State.present_pending (r : HostRequest) : (s.present r).pending = s.pending := rfl
@[simp] theorem State.present_link (r : HostRequest) : (s.present r).link = s.link ++ [r] := rfl

/-! ### sealWindow -/

@[simp] theorem State.sealWindow_powered (n : Nat) : (s.sealWindow n).powered = s.powered := rfl
@[simp] theorem State.sealWindow_pins (n : Nat) : (s.sealWindow n).pins = s.pins := rfl
@[simp] theorem State.sealWindow_geometry (n : Nat) : (s.sealWindow n).geometry = s.geometry := rfl
@[simp] theorem State.sealWindow_mode (n : Nat) : (s.sealWindow n).mode = s.mode := rfl
@[simp] theorem State.sealWindow_causes (n : Nat) : (s.sealWindow n).causes = s.causes := rfl
@[simp] theorem State.sealWindow_drainedLine (n : Nat) : (s.sealWindow n).drainedLine = s.drainedLine := rfl
@[simp] theorem State.sealWindow_attn (n : Nat) : (s.sealWindow n).attn = s.attn := rfl
@[simp] theorem State.sealWindow_mount (n : Nat) : (s.sealWindow n).mount = s.mount := rfl
@[simp] theorem State.sealWindow_formatBase (n : Nat) : (s.sealWindow n).formatBase = s.formatBase := rfl
@[simp] theorem State.sealWindow_newestRecord (n : Nat) : (s.sealWindow n).newestRecord = s.newestRecord := rfl
@[simp] theorem State.sealWindow_blank (n : Nat) : (s.sealWindow n).blank = s.blank := rfl
@[simp] theorem State.sealWindow_wprotSampled (n : Nat) : (s.sealWindow n).wprotSampled = s.wprotSampled := rfl
@[simp] theorem State.sealWindow_remap (n : Nat) : (s.sealWindow n).remap = s.remap := rfl
@[simp] theorem State.sealWindow_seq (n : Nat) : (s.sealWindow n).seq = s.seq := rfl
@[simp] theorem State.sealWindow_space (n : Nat) : (s.sealWindow n).space = s.space := rfl
@[simp] theorem State.sealWindow_laneA (n : Nat) : (s.sealWindow n).laneA = s.laneA := rfl
@[simp] theorem State.sealWindow_laneB (n : Nat) : (s.sealWindow n).laneB = s.laneB := rfl
@[simp] theorem State.sealWindow_slots (n : Nat) : (s.sealWindow n).slots = s.slots := rfl
@[simp] theorem State.sealWindow_commitQueue (n : Nat) : (s.sealWindow n).commitQueue = s.commitQueue := rfl
@[simp] theorem State.sealWindow_nextStamp (n : Nat) : (s.sealWindow n).nextStamp = s.nextStamp := rfl
@[simp] theorem State.sealWindow_port (n : Nat) : (s.sealWindow n).port = s.port := rfl
@[simp] theorem State.sealWindow_link (n : Nat) : (s.sealWindow n).link = s.link := rfl
@[simp] theorem State.sealWindow_answers (n : Nat) : (s.sealWindow n).answers = s.answers := rfl
@[simp] theorem State.sealWindow_relocList (n : Nat) : (s.sealWindow n).relocList = s.relocList := rfl
@[simp] theorem State.sealWindow_cursor (n : Nat) : (s.sealWindow n).cursor = s.cursor := rfl
@[simp] theorem State.sealWindow_passCount (n : Nat) : (s.sealWindow n).passCount = s.passCount := rfl
@[simp] theorem State.sealWindow_timer (n : Nat) : (s.sealWindow n).timer = s.timer := rfl
@[simp] theorem State.sealWindow_patrolRead (n : Nat) : (s.sealWindow n).patrolRead = s.patrolRead := rfl
@[simp] theorem State.sealWindow_serial (n : Nat) : (s.sealWindow n).serial = s.serial := rfl
@[simp] theorem State.sealWindow_longCmd (n : Nat) : (s.sealWindow n).longCmd = s.longCmd := rfl
@[simp] theorem State.sealWindow_notices (n : Nat) : (s.sealWindow n).notices = s.notices := rfl
@[simp] theorem State.sealWindow_dropped (n : Nat) : (s.sealWindow n).dropped = s.dropped := rfl
@[simp] theorem State.sealWindow_faults (n : Nat) : (s.sealWindow n).faults = s.faults := rfl
@[simp] theorem State.sealWindow_stats (n : Nat) : (s.sealWindow n).stats = s.stats := rfl
@[simp] theorem State.sealWindow_pending (n : Nat) : (s.sealWindow n).pending = s.pending := rfl

/-! ### clearFaults -/

@[simp] theorem State.clearFaults_powered : s.clearFaults.powered = s.powered := rfl
@[simp] theorem State.clearFaults_pins : s.clearFaults.pins = s.pins := rfl
@[simp] theorem State.clearFaults_geometry : s.clearFaults.geometry = s.geometry := rfl
@[simp] theorem State.clearFaults_mode : s.clearFaults.mode = s.mode := rfl
@[simp] theorem State.clearFaults_causes : s.clearFaults.causes = s.causes := rfl
@[simp] theorem State.clearFaults_drainedLine : s.clearFaults.drainedLine = s.drainedLine := rfl
@[simp] theorem State.clearFaults_attn : s.clearFaults.attn = s.attn := rfl
@[simp] theorem State.clearFaults_mount : s.clearFaults.mount = s.mount := rfl
@[simp] theorem State.clearFaults_cfg : s.clearFaults.cfg = s.cfg := rfl
@[simp] theorem State.clearFaults_formatBase : s.clearFaults.formatBase = s.formatBase := rfl
@[simp] theorem State.clearFaults_newestRecord : s.clearFaults.newestRecord = s.newestRecord := rfl
@[simp] theorem State.clearFaults_blank : s.clearFaults.blank = s.blank := rfl
@[simp] theorem State.clearFaults_wprotSampled : s.clearFaults.wprotSampled = s.wprotSampled := rfl
@[simp] theorem State.clearFaults_remap : s.clearFaults.remap = s.remap := rfl
@[simp] theorem State.clearFaults_seq : s.clearFaults.seq = s.seq := rfl
@[simp] theorem State.clearFaults_space : s.clearFaults.space = s.space := rfl
@[simp] theorem State.clearFaults_laneA : s.clearFaults.laneA = s.laneA := rfl
@[simp] theorem State.clearFaults_laneB : s.clearFaults.laneB = s.laneB := rfl
@[simp] theorem State.clearFaults_slots : s.clearFaults.slots = s.slots := rfl
@[simp] theorem State.clearFaults_commitQueue : s.clearFaults.commitQueue = s.commitQueue := rfl
@[simp] theorem State.clearFaults_nextStamp : s.clearFaults.nextStamp = s.nextStamp := rfl
@[simp] theorem State.clearFaults_port : s.clearFaults.port = s.port := rfl
@[simp] theorem State.clearFaults_link : s.clearFaults.link = s.link := rfl
@[simp] theorem State.clearFaults_answers : s.clearFaults.answers = s.answers := rfl
@[simp] theorem State.clearFaults_relocList : s.clearFaults.relocList = s.relocList := rfl
@[simp] theorem State.clearFaults_cursor : s.clearFaults.cursor = s.cursor := rfl
@[simp] theorem State.clearFaults_passCount : s.clearFaults.passCount = s.passCount := rfl
@[simp] theorem State.clearFaults_timer : s.clearFaults.timer = s.timer := rfl
@[simp] theorem State.clearFaults_patrolRead : s.clearFaults.patrolRead = s.patrolRead := rfl
@[simp] theorem State.clearFaults_serial : s.clearFaults.serial = s.serial := rfl
@[simp] theorem State.clearFaults_longCmd : s.clearFaults.longCmd = s.longCmd := rfl
@[simp] theorem State.clearFaults_notices : s.clearFaults.notices = s.notices := rfl
@[simp] theorem State.clearFaults_stats : s.clearFaults.stats = s.stats := rfl
@[simp] theorem State.clearFaults_pending : s.clearFaults.pending = s.pending := rfl
@[simp] theorem State.clearFaults_faults : s.clearFaults.faults = s.standing := rfl
@[simp] theorem State.clearFaults_dropped : s.clearFaults.dropped = 0 := rfl

/-! ### startTimer -/

@[simp] theorem State.startTimer_powered : s.startTimer.powered = s.powered := rfl
@[simp] theorem State.startTimer_pins : s.startTimer.pins = s.pins := rfl
@[simp] theorem State.startTimer_geometry : s.startTimer.geometry = s.geometry := rfl
@[simp] theorem State.startTimer_mode : s.startTimer.mode = s.mode := rfl
@[simp] theorem State.startTimer_causes : s.startTimer.causes = s.causes := rfl
@[simp] theorem State.startTimer_drainedLine : s.startTimer.drainedLine = s.drainedLine := rfl
@[simp] theorem State.startTimer_attn : s.startTimer.attn = s.attn := rfl
@[simp] theorem State.startTimer_mount : s.startTimer.mount = s.mount := rfl
@[simp] theorem State.startTimer_cfg : s.startTimer.cfg = s.cfg := rfl
@[simp] theorem State.startTimer_formatBase : s.startTimer.formatBase = s.formatBase := rfl
@[simp] theorem State.startTimer_newestRecord : s.startTimer.newestRecord = s.newestRecord := rfl
@[simp] theorem State.startTimer_blank : s.startTimer.blank = s.blank := rfl
@[simp] theorem State.startTimer_wprotSampled : s.startTimer.wprotSampled = s.wprotSampled := rfl
@[simp] theorem State.startTimer_remap : s.startTimer.remap = s.remap := rfl
@[simp] theorem State.startTimer_seq : s.startTimer.seq = s.seq := rfl
@[simp] theorem State.startTimer_space : s.startTimer.space = s.space := rfl
@[simp] theorem State.startTimer_laneA : s.startTimer.laneA = s.laneA := rfl
@[simp] theorem State.startTimer_laneB : s.startTimer.laneB = s.laneB := rfl
@[simp] theorem State.startTimer_slots : s.startTimer.slots = s.slots := rfl
@[simp] theorem State.startTimer_commitQueue : s.startTimer.commitQueue = s.commitQueue := rfl
@[simp] theorem State.startTimer_nextStamp : s.startTimer.nextStamp = s.nextStamp := rfl
@[simp] theorem State.startTimer_port : s.startTimer.port = s.port := rfl
@[simp] theorem State.startTimer_link : s.startTimer.link = s.link := rfl
@[simp] theorem State.startTimer_answers : s.startTimer.answers = s.answers := rfl
@[simp] theorem State.startTimer_relocList : s.startTimer.relocList = s.relocList := rfl
@[simp] theorem State.startTimer_cursor : s.startTimer.cursor = s.cursor := rfl
@[simp] theorem State.startTimer_passCount : s.startTimer.passCount = s.passCount := rfl
@[simp] theorem State.startTimer_patrolRead : s.startTimer.patrolRead = s.patrolRead := rfl
@[simp] theorem State.startTimer_serial : s.startTimer.serial = s.serial := rfl
@[simp] theorem State.startTimer_longCmd : s.startTimer.longCmd = s.longCmd := rfl
@[simp] theorem State.startTimer_notices : s.startTimer.notices = s.notices := rfl
@[simp] theorem State.startTimer_dropped : s.startTimer.dropped = s.dropped := rfl
@[simp] theorem State.startTimer_faults : s.startTimer.faults = s.faults := rfl
@[simp] theorem State.startTimer_stats : s.startTimer.stats = s.stats := rfl
@[simp] theorem State.startTimer_pending : s.startTimer.pending = s.pending := rfl

/-! ### clampCursor -/

@[simp] theorem State.clampCursor_powered : s.clampCursor.powered = s.powered := rfl
@[simp] theorem State.clampCursor_pins : s.clampCursor.pins = s.pins := rfl
@[simp] theorem State.clampCursor_geometry : s.clampCursor.geometry = s.geometry := rfl
@[simp] theorem State.clampCursor_mode : s.clampCursor.mode = s.mode := rfl
@[simp] theorem State.clampCursor_causes : s.clampCursor.causes = s.causes := rfl
@[simp] theorem State.clampCursor_drainedLine : s.clampCursor.drainedLine = s.drainedLine := rfl
@[simp] theorem State.clampCursor_attn : s.clampCursor.attn = s.attn := rfl
@[simp] theorem State.clampCursor_mount : s.clampCursor.mount = s.mount := rfl
@[simp] theorem State.clampCursor_cfg : s.clampCursor.cfg = s.cfg := rfl
@[simp] theorem State.clampCursor_formatBase : s.clampCursor.formatBase = s.formatBase := rfl
@[simp] theorem State.clampCursor_newestRecord : s.clampCursor.newestRecord = s.newestRecord := rfl
@[simp] theorem State.clampCursor_blank : s.clampCursor.blank = s.blank := rfl
@[simp] theorem State.clampCursor_wprotSampled : s.clampCursor.wprotSampled = s.wprotSampled := rfl
@[simp] theorem State.clampCursor_remap : s.clampCursor.remap = s.remap := rfl
@[simp] theorem State.clampCursor_seq : s.clampCursor.seq = s.seq := rfl
@[simp] theorem State.clampCursor_space : s.clampCursor.space = s.space := rfl
@[simp] theorem State.clampCursor_laneA : s.clampCursor.laneA = s.laneA := rfl
@[simp] theorem State.clampCursor_laneB : s.clampCursor.laneB = s.laneB := rfl
@[simp] theorem State.clampCursor_slots : s.clampCursor.slots = s.slots := rfl
@[simp] theorem State.clampCursor_commitQueue : s.clampCursor.commitQueue = s.commitQueue := rfl
@[simp] theorem State.clampCursor_nextStamp : s.clampCursor.nextStamp = s.nextStamp := rfl
@[simp] theorem State.clampCursor_port : s.clampCursor.port = s.port := rfl
@[simp] theorem State.clampCursor_link : s.clampCursor.link = s.link := rfl
@[simp] theorem State.clampCursor_answers : s.clampCursor.answers = s.answers := rfl
@[simp] theorem State.clampCursor_relocList : s.clampCursor.relocList = s.relocList := rfl
@[simp] theorem State.clampCursor_passCount : s.clampCursor.passCount = s.passCount := rfl
@[simp] theorem State.clampCursor_timer : s.clampCursor.timer = s.timer := rfl
@[simp] theorem State.clampCursor_patrolRead : s.clampCursor.patrolRead = s.patrolRead := rfl
@[simp] theorem State.clampCursor_serial : s.clampCursor.serial = s.serial := rfl
@[simp] theorem State.clampCursor_longCmd : s.clampCursor.longCmd = s.longCmd := rfl
@[simp] theorem State.clampCursor_notices : s.clampCursor.notices = s.notices := rfl
@[simp] theorem State.clampCursor_dropped : s.clampCursor.dropped = s.dropped := rfl
@[simp] theorem State.clampCursor_faults : s.clampCursor.faults = s.faults := rfl
@[simp] theorem State.clampCursor_stats : s.clampCursor.stats = s.stats := rfl
@[simp] theorem State.clampCursor_pending : s.clampCursor.pending = s.pending := rfl
@[simp] theorem State.clampCursor_cursor : s.clampCursor.cursor = if s.cfg.capacity ≤ s.cursor then 0 else s.cursor := rfl

/-! ### advanceCursor -/

@[simp] theorem State.advanceCursor_powered (n : Nat) : (s.advanceCursor n).powered = s.powered := rfl
@[simp] theorem State.advanceCursor_pins (n : Nat) : (s.advanceCursor n).pins = s.pins := rfl
@[simp] theorem State.advanceCursor_geometry (n : Nat) : (s.advanceCursor n).geometry = s.geometry := rfl
@[simp] theorem State.advanceCursor_mode (n : Nat) : (s.advanceCursor n).mode = s.mode := rfl
@[simp] theorem State.advanceCursor_causes (n : Nat) : (s.advanceCursor n).causes = s.causes := rfl
@[simp] theorem State.advanceCursor_drainedLine (n : Nat) : (s.advanceCursor n).drainedLine = s.drainedLine := rfl
@[simp] theorem State.advanceCursor_attn (n : Nat) : (s.advanceCursor n).attn = s.attn := rfl
@[simp] theorem State.advanceCursor_mount (n : Nat) : (s.advanceCursor n).mount = s.mount := rfl
@[simp] theorem State.advanceCursor_cfg (n : Nat) : (s.advanceCursor n).cfg = s.cfg := rfl
@[simp] theorem State.advanceCursor_formatBase (n : Nat) : (s.advanceCursor n).formatBase = s.formatBase := rfl
@[simp] theorem State.advanceCursor_newestRecord (n : Nat) : (s.advanceCursor n).newestRecord = s.newestRecord := rfl
@[simp] theorem State.advanceCursor_blank (n : Nat) : (s.advanceCursor n).blank = s.blank := rfl
@[simp] theorem State.advanceCursor_wprotSampled (n : Nat) : (s.advanceCursor n).wprotSampled = s.wprotSampled := rfl
@[simp] theorem State.advanceCursor_remap (n : Nat) : (s.advanceCursor n).remap = s.remap := rfl
@[simp] theorem State.advanceCursor_seq (n : Nat) : (s.advanceCursor n).seq = s.seq := rfl
@[simp] theorem State.advanceCursor_space (n : Nat) : (s.advanceCursor n).space = s.space := rfl
@[simp] theorem State.advanceCursor_laneA (n : Nat) : (s.advanceCursor n).laneA = s.laneA := rfl
@[simp] theorem State.advanceCursor_laneB (n : Nat) : (s.advanceCursor n).laneB = s.laneB := rfl
@[simp] theorem State.advanceCursor_slots (n : Nat) : (s.advanceCursor n).slots = s.slots := rfl
@[simp] theorem State.advanceCursor_commitQueue (n : Nat) : (s.advanceCursor n).commitQueue = s.commitQueue := rfl
@[simp] theorem State.advanceCursor_nextStamp (n : Nat) : (s.advanceCursor n).nextStamp = s.nextStamp := rfl
@[simp] theorem State.advanceCursor_port (n : Nat) : (s.advanceCursor n).port = s.port := rfl
@[simp] theorem State.advanceCursor_link (n : Nat) : (s.advanceCursor n).link = s.link := rfl
@[simp] theorem State.advanceCursor_answers (n : Nat) : (s.advanceCursor n).answers = s.answers := rfl
@[simp] theorem State.advanceCursor_relocList (n : Nat) : (s.advanceCursor n).relocList = s.relocList := rfl
@[simp] theorem State.advanceCursor_timer (n : Nat) : (s.advanceCursor n).timer = s.timer := rfl
@[simp] theorem State.advanceCursor_patrolRead (n : Nat) : (s.advanceCursor n).patrolRead = s.patrolRead := rfl
@[simp] theorem State.advanceCursor_serial (n : Nat) : (s.advanceCursor n).serial = s.serial := rfl
@[simp] theorem State.advanceCursor_longCmd (n : Nat) : (s.advanceCursor n).longCmd = s.longCmd := rfl
@[simp] theorem State.advanceCursor_notices (n : Nat) : (s.advanceCursor n).notices = s.notices := rfl
@[simp] theorem State.advanceCursor_dropped (n : Nat) : (s.advanceCursor n).dropped = s.dropped := rfl
@[simp] theorem State.advanceCursor_faults (n : Nat) : (s.advanceCursor n).faults = s.faults := rfl
@[simp] theorem State.advanceCursor_stats (n : Nat) : (s.advanceCursor n).stats = s.stats := rfl
@[simp] theorem State.advanceCursor_pending (n : Nat) : (s.advanceCursor n).pending = s.pending := rfl

/-! ### countOutcomes -/

@[simp] theorem State.countOutcomes_powered (d : Decoded) : (s.countOutcomes d).powered = s.powered := rfl
@[simp] theorem State.countOutcomes_pins (d : Decoded) : (s.countOutcomes d).pins = s.pins := rfl
@[simp] theorem State.countOutcomes_geometry (d : Decoded) : (s.countOutcomes d).geometry = s.geometry := rfl
@[simp] theorem State.countOutcomes_mode (d : Decoded) : (s.countOutcomes d).mode = s.mode := rfl
@[simp] theorem State.countOutcomes_causes (d : Decoded) : (s.countOutcomes d).causes = s.causes := rfl
@[simp] theorem State.countOutcomes_drainedLine (d : Decoded) : (s.countOutcomes d).drainedLine = s.drainedLine := rfl
@[simp] theorem State.countOutcomes_attn (d : Decoded) : (s.countOutcomes d).attn = s.attn := rfl
@[simp] theorem State.countOutcomes_mount (d : Decoded) : (s.countOutcomes d).mount = s.mount := rfl
@[simp] theorem State.countOutcomes_cfg (d : Decoded) : (s.countOutcomes d).cfg = s.cfg := rfl
@[simp] theorem State.countOutcomes_formatBase (d : Decoded) : (s.countOutcomes d).formatBase = s.formatBase := rfl
@[simp] theorem State.countOutcomes_newestRecord (d : Decoded) : (s.countOutcomes d).newestRecord = s.newestRecord := rfl
@[simp] theorem State.countOutcomes_blank (d : Decoded) : (s.countOutcomes d).blank = s.blank := rfl
@[simp] theorem State.countOutcomes_wprotSampled (d : Decoded) : (s.countOutcomes d).wprotSampled = s.wprotSampled := rfl
@[simp] theorem State.countOutcomes_remap (d : Decoded) : (s.countOutcomes d).remap = s.remap := rfl
@[simp] theorem State.countOutcomes_seq (d : Decoded) : (s.countOutcomes d).seq = s.seq := rfl
@[simp] theorem State.countOutcomes_space (d : Decoded) : (s.countOutcomes d).space = s.space := rfl
@[simp] theorem State.countOutcomes_laneA (d : Decoded) : (s.countOutcomes d).laneA = s.laneA := rfl
@[simp] theorem State.countOutcomes_laneB (d : Decoded) : (s.countOutcomes d).laneB = s.laneB := rfl
@[simp] theorem State.countOutcomes_slots (d : Decoded) : (s.countOutcomes d).slots = s.slots := rfl
@[simp] theorem State.countOutcomes_commitQueue (d : Decoded) : (s.countOutcomes d).commitQueue = s.commitQueue := rfl
@[simp] theorem State.countOutcomes_nextStamp (d : Decoded) : (s.countOutcomes d).nextStamp = s.nextStamp := rfl
@[simp] theorem State.countOutcomes_port (d : Decoded) : (s.countOutcomes d).port = s.port := rfl
@[simp] theorem State.countOutcomes_link (d : Decoded) : (s.countOutcomes d).link = s.link := rfl
@[simp] theorem State.countOutcomes_answers (d : Decoded) : (s.countOutcomes d).answers = s.answers := rfl
@[simp] theorem State.countOutcomes_relocList (d : Decoded) : (s.countOutcomes d).relocList = s.relocList := rfl
@[simp] theorem State.countOutcomes_cursor (d : Decoded) : (s.countOutcomes d).cursor = s.cursor := rfl
@[simp] theorem State.countOutcomes_passCount (d : Decoded) : (s.countOutcomes d).passCount = s.passCount := rfl
@[simp] theorem State.countOutcomes_timer (d : Decoded) : (s.countOutcomes d).timer = s.timer := rfl
@[simp] theorem State.countOutcomes_patrolRead (d : Decoded) : (s.countOutcomes d).patrolRead = s.patrolRead := rfl
@[simp] theorem State.countOutcomes_serial (d : Decoded) : (s.countOutcomes d).serial = s.serial := rfl
@[simp] theorem State.countOutcomes_longCmd (d : Decoded) : (s.countOutcomes d).longCmd = s.longCmd := rfl
@[simp] theorem State.countOutcomes_notices (d : Decoded) : (s.countOutcomes d).notices = s.notices := rfl
@[simp] theorem State.countOutcomes_dropped (d : Decoded) : (s.countOutcomes d).dropped = s.dropped := rfl
@[simp] theorem State.countOutcomes_faults (d : Decoded) : (s.countOutcomes d).faults = s.faults := rfl
@[simp] theorem State.countOutcomes_pending (d : Decoded) : (s.countOutcomes d).pending = s.pending := rfl

/-! ### refreshLines -/

@[simp] theorem State.refreshLines_powered : s.refreshLines.powered = s.powered := rfl
@[simp] theorem State.refreshLines_pins : s.refreshLines.pins = s.pins := rfl
@[simp] theorem State.refreshLines_geometry : s.refreshLines.geometry = s.geometry := rfl
@[simp] theorem State.refreshLines_mode : s.refreshLines.mode = s.mode := rfl
@[simp] theorem State.refreshLines_causes : s.refreshLines.causes = s.causes := rfl
@[simp] theorem State.refreshLines_mount : s.refreshLines.mount = s.mount := rfl
@[simp] theorem State.refreshLines_cfg : s.refreshLines.cfg = s.cfg := rfl
@[simp] theorem State.refreshLines_formatBase : s.refreshLines.formatBase = s.formatBase := rfl
@[simp] theorem State.refreshLines_newestRecord : s.refreshLines.newestRecord = s.newestRecord := rfl
@[simp] theorem State.refreshLines_blank : s.refreshLines.blank = s.blank := rfl
@[simp] theorem State.refreshLines_wprotSampled : s.refreshLines.wprotSampled = s.wprotSampled := rfl
@[simp] theorem State.refreshLines_remap : s.refreshLines.remap = s.remap := rfl
@[simp] theorem State.refreshLines_seq : s.refreshLines.seq = s.seq := rfl
@[simp] theorem State.refreshLines_space : s.refreshLines.space = s.space := rfl
@[simp] theorem State.refreshLines_laneA : s.refreshLines.laneA = s.laneA := rfl
@[simp] theorem State.refreshLines_laneB : s.refreshLines.laneB = s.laneB := rfl
@[simp] theorem State.refreshLines_slots : s.refreshLines.slots = s.slots := rfl
@[simp] theorem State.refreshLines_commitQueue : s.refreshLines.commitQueue = s.commitQueue := rfl
@[simp] theorem State.refreshLines_nextStamp : s.refreshLines.nextStamp = s.nextStamp := rfl
@[simp] theorem State.refreshLines_port : s.refreshLines.port = s.port := rfl
@[simp] theorem State.refreshLines_link : s.refreshLines.link = s.link := rfl
@[simp] theorem State.refreshLines_answers : s.refreshLines.answers = s.answers := rfl
@[simp] theorem State.refreshLines_relocList : s.refreshLines.relocList = s.relocList := rfl
@[simp] theorem State.refreshLines_cursor : s.refreshLines.cursor = s.cursor := rfl
@[simp] theorem State.refreshLines_passCount : s.refreshLines.passCount = s.passCount := rfl
@[simp] theorem State.refreshLines_timer : s.refreshLines.timer = s.timer := rfl
@[simp] theorem State.refreshLines_patrolRead : s.refreshLines.patrolRead = s.patrolRead := rfl
@[simp] theorem State.refreshLines_serial : s.refreshLines.serial = s.serial := rfl
@[simp] theorem State.refreshLines_longCmd : s.refreshLines.longCmd = s.longCmd := rfl
@[simp] theorem State.refreshLines_notices : s.refreshLines.notices = s.notices := rfl
@[simp] theorem State.refreshLines_dropped : s.refreshLines.dropped = s.dropped := rfl
@[simp] theorem State.refreshLines_faults : s.refreshLines.faults = s.faults := rfl
@[simp] theorem State.refreshLines_stats : s.refreshLines.stats = s.stats := rfl
@[simp] theorem State.refreshLines_pending : s.refreshLines.pending = s.pending := rfl
@[simp] theorem State.refreshLines_drainedLine : s.refreshLines.drainedLine = (s.mode == .drained) := rfl
@[simp] theorem State.refreshLines_attn : s.refreshLines.attn = s.attnOf := rfl

/-! ### Soft counts (01 R9) -/

theorem State.bumpSoft_of_free {p : PPage} (h : (s.page p).state = .free) : s.bumpSoft p = s := if_pos h
theorem State.bumpSoft_of_not_free {p : PPage} (h : (s.page p).state ≠ .free) :
    s.bumpSoft p = s.setPage p { s.page p with soft := min ((s.page p).soft + 1) Config.softMax } := if_neg h

/-! ### A lane at an assertion of RESET (06 R102, R111) -/

@[simp] theorem Lane.offlineAs_online (x old : Lane) : (x.offlineAs old).online = (x.online && old.online) := rfl
@[simp] theorem Lane.offlineAs_ready (x old : Lane) : (x.offlineAs old).ready = x.ready := rfl
@[simp] theorem Lane.offlineAs_pages (x old : Lane) : (x.offlineAs old).pages = x.pages := rfl
@[simp] theorem Lane.offlineAs_freeList (x old : Lane) : (x.offlineAs old).freeList = x.freeList := rfl
@[simp] theorem Lane.offlineAs_markList (x old : Lane) : (x.offlineAs old).markList = x.markList := rfl
@[simp] theorem Lane.offlineAs_claims (x old : Lane) : (x.offlineAs old).claims = x.claims := rfl
@[simp] theorem Lane.offlineAs_passOver (x old : Lane) : (x.offlineAs old).passOver = x.passOver := rfl
@[simp] theorem Lane.offlineAs_op (x old : Lane) : (x.offlineAs old).op = x.op := rfl
@[simp] theorem Lane.offlineAs_awaitReady (x old : Lane) : (x.offlineAs old).awaitReady = x.awaitReady := rfl
@[simp] theorem Lane.offlineAs_discard (x old : Lane) : (x.offlineAs old).discard = x.discard := rfl
@[simp] theorem Lane.offlineAs_programs (x old : Lane) : (x.offlineAs old).programs = x.programs := rfl

end Sys2Proof.Machine
end

