-- ==== Sys2Proof/Laws/Keeps.lean ====
section
/-! SUPPORT. What every operation inside a step keeps: the queue of commands, power, pins, geometry and drain causes,
the mode but for the step from DRAINING to DRAINED,
the configuration, the notices given, and the bounds of the lists and counts. One lemma for each shared
operation, so that no invariant unfolds it again. -/

namespace Sys2Proof.Machine

/-- What every operation inside a step keeps. -/
structure Keeps (s t : State) : Prop where
  pending : t.pending = s.pending
  powered : t.powered = s.powered
  pins : t.pins = s.pins
  geometry : t.geometry = s.geometry
  causes : t.causes = s.causes
  cfg : t.cfg = s.cfg
  formatBase : t.formatBase = s.formatBase
  newestRecord : t.newestRecord = s.newestRecord
  blank : t.blank = s.blank
  wprotSampled : t.wprotSampled = s.wprotSampled
  mount : t.mount = s.mount
  serial : t.serial = s.serial
  cursor : t.cursor = s.cursor
  passCount : t.passCount = s.passCount
  timer : t.timer = s.timer
  mode : t.mode = s.mode ∨ (s.mode = .draining ∧ t.mode = .drained ∧ s.causes.any = true)
  slots : t.slots.length = s.slots.length
  given : s.notices <+: t.notices
  notices : s.notices.length ≤ Config.noticeCapacity → t.notices.length ≤ Config.noticeCapacity
  dropped : s.dropped ≤ Config.droppedMax → t.dropped ≤ Config.droppedMax
  reloc : s.relocList.length ≤ Config.relocCapacity → t.relocList.length ≤ Config.relocCapacity
  passA : s.laneA.passOver ≤ Config.passOverLimit → t.laneA.passOver ≤ Config.passOverLimit
  passB : s.laneB.passOver ≤ Config.passOverLimit → t.laneB.passOver ≤ Config.passOverLimit

variable {s t u : State}

theorem Keeps.refl (s : State) : Keeps s s :=
  ⟨rfl, rfl, rfl, rfl, rfl, rfl, rfl, rfl, rfl, rfl, rfl, rfl, rfl, rfl, rfl, .inl rfl, rfl, List.prefix_rfl, id, id, id, id, id⟩

theorem Keeps.trans (h : Keeps s t) (g : Keeps t u) : Keeps s u where
  pending := g.pending.trans h.pending
  powered := g.powered.trans h.powered
  pins := g.pins.trans h.pins
  geometry := g.geometry.trans h.geometry
  causes := g.causes.trans h.causes
  cfg := g.cfg.trans h.cfg
  formatBase := g.formatBase.trans h.formatBase
  newestRecord := g.newestRecord.trans h.newestRecord
  blank := g.blank.trans h.blank
  wprotSampled := g.wprotSampled.trans h.wprotSampled
  mount := g.mount.trans h.mount
  serial := g.serial.trans h.serial
  cursor := g.cursor.trans h.cursor
  passCount := g.passCount.trans h.passCount
  timer := g.timer.trans h.timer
  mode := by
    rcases h.mode with h1 | ⟨h1, h2, h3⟩ <;> rcases g.mode with g1 | ⟨g1, g2, g3⟩
    · exact .inl (g1.trans h1)
    · exact .inr ⟨h1 ▸ g1, g2, h.causes ▸ g3⟩
    · exact .inr ⟨h1, g1.trans h2, h3⟩
    · exact .inr ⟨h1, g2, h3⟩
  slots := g.slots.trans h.slots
  given := h.given.trans g.given
  notices := g.notices ∘ h.notices
  dropped := g.dropped ∘ h.dropped
  reloc := g.reloc ∘ h.reloc
  passA := g.passA ∘ h.passA
  passB := g.passB ∘ h.passB

theorem Keeps.foldl {α : Type} (f : State → α → State) (hf : ∀ t a, Keeps t (f t a)) (l : List α) (s : State) :
    Keeps s (l.foldl f s) := by
  induction l generalizing s with
  | nil => exact .refl s
  | cons a l ih => exact (hf s a).trans (ih _)

/-! ### Lanes, pages, slots, counters -/

theorem keeps_modLane (s : State) (l : LaneId) (f : Lane → Lane)
    (hf : ∀ x, x.passOver ≤ Config.passOverLimit → (f x).passOver ≤ Config.passOverLimit) :
    Keeps s (s.modLane l f) := by
  cases l
  · exact ⟨rfl, rfl, rfl, rfl, rfl, rfl, rfl, rfl, rfl, rfl, rfl, rfl, rfl, rfl, rfl, .inl rfl, rfl, List.prefix_rfl, id, id, id, hf _, id⟩
  · exact ⟨rfl, rfl, rfl, rfl, rfl, rfl, rfl, rfl, rfl, rfl, rfl, rfl, rfl, rfl, rfl, .inl rfl, rfl, List.prefix_rfl, id, id, id, id, hf _⟩

theorem keeps_setPage (s : State) (p : PPage) (r : PageRec) : Keeps s (s.setPage p r) :=
  keeps_modLane _ _ _ fun _ h => h

theorem keeps_bumpWear (s : State) (p : PPage) : Keeps s (s.bumpWear p) := keeps_setPage ..

theorem keeps_bumpSoft (s : State) (p : PPage) : Keeps s (s.bumpSoft p) := by
  unfold State.bumpSoft
  split
  · exact .refl s
  · exact keeps_setPage ..

theorem keeps_setSlot (s : State) (k : Nat) (o : Option Slot) : Keeps s (s.setSlot k o) :=
  ⟨rfl, rfl, rfl, rfl, rfl, rfl, rfl, rfl, rfl, rfl, rfl, rfl, rfl, rfl, rfl, .inl rfl, by simp, List.prefix_rfl, id, id, id, id, id⟩

theorem keeps_setEntry (s : State) (n : Nat) (e : RemapEntry) : Keeps s (s.setEntry n e) :=
  ⟨rfl, rfl, rfl, rfl, rfl, rfl, rfl, rfl, rfl, rfl, rfl, rfl, rfl, rfl, rfl, .inl rfl, rfl, List.prefix_rfl, id, id, id, id, id⟩

theorem keeps_endOp (s : State) (l : LaneId) : Keeps s (s.endOp l) := keeps_modLane _ _ _ fun _ h => h

theorem keeps_takeSeq (s : State) : Keeps s s.takeSeq :=
  ⟨rfl, rfl, rfl, rfl, rfl, rfl, rfl, rfl, rfl, rfl, rfl, rfl, rfl, rfl, rfl, .inl rfl, rfl, List.prefix_rfl, id, id, id, id, id⟩

theorem keeps_flag (s : State) (f : FaultFlags → FaultFlags) : Keeps s (s.flag f) :=
  ⟨rfl, rfl, rfl, rfl, rfl, rfl, rfl, rfl, rfl, rfl, rfl, rfl, rfl, rfl, rfl, .inl rfl, rfl, List.prefix_rfl, id, id, id, id, id⟩

/-! ### Notices -/

theorem give_notices_le (s : State) (n : Notice) (h : s.notices.length ≤ Config.noticeCapacity) :
    (s.give n).notices.length ≤ Config.noticeCapacity := by
  simp only [State.give]; split
  · simp only [List.length_append, List.length_singleton]; omega
  · exact h

theorem give_prefix (s : State) (n : Notice) : s.notices <+: (s.give n).notices := by
  simp only [State.give]; split
  · exact List.prefix_append ..
  · exact List.prefix_rfl

theorem give_dropped_le (s : State) (n : Notice) (h : s.dropped ≤ Config.droppedMax) :
    (s.give n).dropped ≤ Config.droppedMax := by
  simp only [State.give]; split
  · exact h
  · exact Nat.min_le_right ..

theorem keeps_give (s : State) (n : Notice) : Keeps s (s.give n) :=
  ⟨rfl, rfl, rfl, rfl, rfl, rfl, rfl, rfl, rfl, rfl, rfl, rfl, rfl, rfl, rfl, .inl rfl, rfl, give_prefix s n, give_notices_le s n, give_dropped_le s n, id, id, id⟩

theorem keeps_recompute (s : State) : Keeps s s.recompute := by
  unfold State.recompute; split
  · exact .refl s
  · exact Keeps.trans (t := { s with space := s.spaceNow })
      ⟨rfl, rfl, rfl, rfl, rfl, rfl, rfl, rfl, rfl, rfl, rfl, rfl, rfl, rfl, rfl, .inl rfl, rfl, List.prefix_rfl, id, id, id, id, id⟩ ((keeps_give ..).trans (keeps_flag ..))

/-! ### Release and claims -/

theorem keeps_retire (s : State) (p : PPage) : Keeps s (s.retire p) :=
  (keeps_setPage ..).trans (keeps_modLane _ _ _ fun _ h => h)

theorem keeps_release (s : State) (p : PPage) (n : Nat) : Keeps s (s.release p n) := by
  unfold State.release; split
  · exact (keeps_retire ..).trans (keeps_give ..)
  · exact (keeps_setPage ..).trans (keeps_modLane _ _ _ fun _ h => h)

theorem keeps_post (s : State) (l : LaneId) (c : Claim) : Keeps s (s.post l c) :=
  keeps_modLane _ _ _ fun _ h => h

theorem keeps_withdraw (s : State) (l : LaneId) (c : Claim) : Keeps s (s.withdraw l c) :=
  keeps_modLane _ _ _ fun _ h => h

theorem keeps_withdrawBoth (s : State) (c : Claim) : Keeps s (s.withdrawBoth c) :=
  (keeps_withdraw ..).trans (keeps_withdraw ..)

theorem keeps_withdrawCommit (s : State) (l : LaneId) : Keeps s (s.withdrawCommit l) :=
  keeps_modLane _ _ _ fun _ _ => Nat.zero_le _

theorem keeps_answer (s : State) (a : HostAnswer) : Keeps s (s.answer a) :=
  ⟨rfl, rfl, rfl, rfl, rfl, rfl, rfl, rfl, rfl, rfl, rfl, rfl, rfl, rfl, rfl, .inl rfl, rfl, List.prefix_rfl, id, id, id, id, id⟩

/-! ### Departures of slots -/

theorem keeps_finishLong (s : State) (r : Nat) (p : Option Nat) : Keeps s (s.finishLong r p) := by
  unfold State.finishLong; split
  · exact .refl s
  · exact Keeps.trans (t := { s with longCmd := none })
      ⟨rfl, rfl, rfl, rfl, rfl, rfl, rfl, rfl, rfl, rfl, rfl, rfl, rfl, rfl, rfl, .inl rfl, rfl, List.prefix_rfl, id, id, id, id, id⟩ (keeps_give ..)

theorem keeps_reportHeld (s : State) (k : Nat) (lost : Bool) : Keeps s (s.reportHeld k lost) := by
  unfold State.reportHeld; split
  · split
    · split
      · exact keeps_answer ..
      · exact ⟨rfl, rfl, rfl, rfl, rfl, rfl, rfl, rfl, rfl, rfl, rfl, rfl, rfl, rfl, rfl, .inl rfl, rfl, List.prefix_rfl, id, id, id, id, id⟩
    · exact .refl s
  · exact .refl s

theorem keeps_flushCheck (s : State) (lost : Bool) : Keeps s (s.flushCheck lost) := by
  unfold State.flushCheck; split
  · rename_i before _
    have h : Keeps s { s with longCmd := some (.flush (before || lost)) } :=
      ⟨rfl, rfl, rfl, rfl, rfl, rfl, rfl, rfl, rfl, rfl, rfl, rfl, rfl, rfl, rfl, .inl rfl, rfl, List.prefix_rfl, id, id, id, id, id⟩
    dsimp only; split
    · exact h
    · exact h.trans (keeps_finishLong ..)
  · exact .refl s

theorem keeps_quiesceCheck (s : State) : Keeps s s.quiesceCheck := by
  unfold State.quiesceCheck; split
  · exact keeps_finishLong ..
  · exact .refl s

theorem keeps_poolReport (s : State) : Keeps s s.poolReport := by
  unfold State.poolReport; split
  · rename_i h
    exact Keeps.trans (t := { s with mode := .drained })
      ⟨rfl, rfl, rfl, rfl, rfl, rfl, rfl, rfl, rfl, rfl, rfl, rfl, rfl, rfl, rfl, .inr ⟨h.2.1, rfl, h.2.2⟩, rfl, List.prefix_rfl, id, id, id, id, id⟩ (keeps_quiesceCheck ..)
  · exact .refl s

theorem keeps_freeSlot (s : State) (k : Nat) (how : Leave) : Keeps s (s.freeSlot k how) := by
  unfold State.freeSlot; split
  · exact .refl s
  · refine (keeps_setSlot s k none).trans (Keeps.trans ?_ (keeps_poolReport _))
    split <;> split
    · exact (keeps_reportHeld ..).trans (keeps_flushCheck ..)
    · exact keeps_flushCheck ..
    · exact keeps_reportHeld ..
    · exact .refl _

theorem keeps_queue (s : State) (q : List Nat) : Keeps s { s with commitQueue := q } :=
  ⟨rfl, rfl, rfl, rfl, rfl, rfl, rfl, rfl, rfl, rfl, rfl, rfl, rfl, rfl, rfl, .inl rfl, rfl, List.prefix_rfl, id, id, id, id, id⟩

theorem keeps_dropSlot (s : State) (k c : Nat) (p : Option PPage) : Keeps s (s.dropSlot k c p) := by
  unfold State.dropSlot; split
  · exact keeps_queue ..
  · exact (keeps_queue ..).trans ((keeps_give ..).trans ((keeps_flag ..).trans (keeps_freeSlot ..)))

theorem keeps_exhaust (s : State) : Keeps s s.exhaust := by
  unfold State.exhaust; split
  · exact Keeps.foldl _ (fun _ _ => keeps_dropSlot ..) _ _
  · exact .refl s

/-! ### The staging pool -/

theorem keeps_enqueueTail (s : State) (k : Nat) : Keeps s (s.enqueueTail k) :=
  (keeps_queue ..).trans (keeps_exhaust ..)

theorem keeps_enqueueHead (s : State) (k : Nat) : Keeps s (s.enqueueHead k) := keeps_queue ..

theorem keeps_completeFill (s : State) (k : Nat) (src : List Byte) (p : BitVec 8) :
    Keeps s (s.completeFill k src p) := by
  unfold State.completeFill; split
  · exact .refl s
  · exact (keeps_setSlot ..).trans (keeps_enqueueTail ..)

theorem keeps_fillWithoutSource (s : State) (k : Nat) : Keeps s (s.fillWithoutSource k) := keeps_completeFill ..

/-- What joining the queue filled does to a slot that is not FREE. -/
theorem joinFilled_of_slot {sl : Slot} {k : Nat} (h : s.slot k = some sl) (src : List Byte) (p : BitVec 8) :
    s.joinFilled k src p =
      { s with slots := s.slots.set k (some (sl.filled src p)), commitQueue := s.commitQueue ++ [k] } := by
  simp only [State.joinFilled, h, State.setSlot]

theorem keeps_joinFilled (s : State) (k : Nat) (src : List Byte) (p : BitVec 8) :
    Keeps s (s.joinFilled k src p) := by
  unfold State.joinFilled; split
  · exact .refl s
  · exact (keeps_setSlot ..).trans (keeps_queue ..)

theorem keeps_fillLost (s : State) (held : Bool) (k : Nat) : Keeps s (s.fillLost held k) := by
  unfold State.fillLost; split
  · exact keeps_fillWithoutSource ..
  · exact keeps_joinFilled ..

theorem keeps_startFill (s : State) (k : Nat) : Keeps s (s.startFill k) := by
  unfold State.startFill; split
  · exact .refl s
  · split
    · exact keeps_completeFill ..
    · exact keeps_post ..
    · exact keeps_completeFill ..
    · exact keeps_fillWithoutSource ..

theorem keeps_seal (s : State) (k : Nat) : Keeps s (s.seal k) := by
  unfold State.seal; split
  · exact .refl s
  · split
    · split
      · exact (keeps_setSlot ..).trans (keeps_enqueueTail ..)
      · exact (keeps_setSlot ..).trans (keeps_startFill ..)
    · exact .refl s

theorem keeps_sealEach (s : State) (ks : List Nat) : Keeps s (s.sealEach ks) :=
  Keeps.foldl _ (fun _ _ => keeps_seal ..) _ _

theorem keeps_sealAll (s : State) : Keeps s s.sealAll := keeps_sealEach ..

theorem keeps_sealOldest (s : State) : Keeps s s.sealOldest := by
  unfold State.sealOldest; split
  · exact .refl s
  · exact keeps_seal ..

theorem keeps_lateMergeEnd (s : State) (k : Nat) : Keeps s (s.lateMergeEnd k) := by
  unfold State.lateMergeEnd; split
  · exact .refl s
  · split
    · exact (keeps_withdrawBoth ..).trans (keeps_completeFill ..)
    · exact .refl s

theorem keeps_stamped (s : State) (n : Nat) : Keeps s { s with nextStamp := n } :=
  ⟨rfl, rfl, rfl, rfl, rfl, rfl, rfl, rfl, rfl, rfl, rfl, rfl, rfl, rfl, rfl, .inl rfl, rfl, List.prefix_rfl, id, id, id, id, id⟩

theorem keeps_placePart (s : State) (pt : Part) : Keeps s (s.placePart pt).1 := by
  unfold State.placePart; split
  · exact (keeps_setSlot ..).trans (keeps_lateMergeEnd ..)
  · split
    · exact .refl s
    · exact (keeps_setSlot ..).trans (keeps_stamped ..)

theorem keeps_placeParts (s : State) (pts : List Part) : Keeps s (s.placeParts pts).1 := by
  induction pts generalizing s with
  | nil => exact .refl s
  | cons pt pts ih => exact (keeps_placePart s pt).trans (ih _)

theorem keeps_modSlot (s : State) (k : Nat) (f : Slot → Slot) : Keeps s (s.modSlot k f) := by
  unfold State.modSlot; split
  · exact .refl s
  · exact keeps_setSlot ..

theorem keeps_sealFull (s : State) (ks : List Nat) : Keeps s (s.sealFull ks) := keeps_sealEach ..

theorem keeps_writeSeals (s : State) (placed : List Placed) (sync : Bool) :
    Keeps s (s.writeSeals placed sync) := by
  unfold State.writeSeals
  refine Keeps.trans ?_ (Keeps.foldl _ (fun _ _ => keeps_sealOldest _) _ _)
  split <;> split
  · exact (keeps_sealFull ..).trans ((keeps_sealEach ..).trans (keeps_sealEach ..))
  · exact (keeps_sealFull ..).trans (keeps_sealEach ..)
  · exact (keeps_sealFull ..).trans (keeps_sealEach ..)
  · exact keeps_sealFull ..

theorem keeps_createSlot {n : Nat} {o : Origin} {data : List Byte} {p : BitVec 8}
    (h : s.createSlot n o data p = some t) : Keeps s t := by
  unfold State.createSlot at h
  split at h
  · split at h
    · cases h
    · cases h
      exact (keeps_setSlot ..).trans ((keeps_stamped ..).trans (keeps_enqueueTail ..))
  · cases h

/-! ### Decoded reads and relocation requests -/

theorem keeps_countOutcomes (s : State) (d : Decoded) : Keeps s (s.countOutcomes d) :=
  ⟨rfl, rfl, rfl, rfl, rfl, rfl, rfl, rfl, rfl, rfl, rfl, rfl, rfl, rfl, rfl, .inl rfl, rfl, List.prefix_rfl, id, id, id, id, id⟩

theorem keeps_noteUncorrectable (s : State) (p : PPage) (n : Nat) (d : Decoded) :
    Keeps s (s.noteUncorrectable p n d) := by
  unfold State.noteUncorrectable; split
  · exact (keeps_give ..).trans (keeps_flag ..)
  · exact .refl s

theorem keeps_readEffects (s : State) (p : PPage) (n : Nat) (d : Decoded) : Keeps s (s.readEffects p n d) :=
  (keeps_countOutcomes ..).trans (keeps_noteUncorrectable ..)

theorem keeps_relocRequest (s : State) (n : Nat) (p : PPage) : Keeps s (s.relocRequest n p) := by
  unfold State.relocRequest; split
  · exact .refl s
  · rename_i h
    refine Keeps.trans (t := { s with relocList := s.relocList ++ [(n, p)] }) ?_ (keeps_bumpSoft ..)
    refine ⟨rfl, rfl, rfl, rfl, rfl, rfl, rfl, rfl, rfl, rfl, rfl, rfl, rfl, rfl, rfl, .inl rfl, rfl, List.prefix_rfl, id, id, fun _ => ?_, id, id⟩
    simp only [Bool.or_eq_true, decide_eq_true_eq, not_or, Nat.not_le] at h
    simp only [List.length_append, List.length_singleton]
    omega

theorem keeps_dropRelocHead (s : State) (n : Nat) (p : PPage) : Keeps s (s.dropRelocHead n p) := by
  unfold State.dropRelocHead; split
  · refine ⟨rfl, rfl, rfl, rfl, rfl, rfl, rfl, rfl, rfl, rfl, rfl, rfl, rfl, rfl, rfl, .inl rfl, rfl, List.prefix_rfl, id, id, fun h => ?_, id, id⟩
    simp only [List.length_tail]; omega
  · exact .refl s

/-! ### The host port -/

theorem keeps_countWrite (s : State) (placed : List Placed) : Keeps s (s.countWrite placed) :=
  ⟨rfl, rfl, rfl, rfl, rfl, rfl, rfl, rfl, rfl, rfl, rfl, rfl, rfl, rfl, rfl, .inl rfl, rfl, List.prefix_rfl, id, id, id, id, id⟩

theorem keeps_port (s : State) (p : Port) : Keeps s { s with port := p } :=
  ⟨rfl, rfl, rfl, rfl, rfl, rfl, rfl, rfl, rfl, rfl, rfl, rfl, rfl, rfl, rfl, .inl rfl, rfl, List.prefix_rfl, id, id, id, id, id⟩

theorem keeps_hold (s : State) (ks : List Nat) : Keeps s (s.hold ks) :=
  (Keeps.foldl _ (fun _ _ => keeps_modSlot ..) ks s).trans (keeps_port ..)

theorem keeps_placeWrite (s : State) (parts : List Part) : Keeps s (s.placeWrite parts) := by
  unfold State.placeWrite
  refine (keeps_placeParts s parts).trans ((keeps_countWrite _ (s.placeParts parts).2).trans ?_)
  dsimp only
  split
  · exact (keeps_hold ..).trans (keeps_writeSeals ..)
  · exact (keeps_writeSeals ..).trans (keeps_answer ..)

theorem keeps_takeWrite (s : State) (addr : Nat) (data : List Byte) : Keeps s (s.takeWrite addr data) := by
  unfold State.takeWrite
  repeat' split
  all_goals first | exact keeps_answer .. | exact keeps_placeWrite ..

theorem keeps_pageRequest (s : State) (rp : ReadPage) : Keeps s (s.pageRequest rp) := by
  unfold State.pageRequest; split
  · exact keeps_relocRequest ..
  · exact .refl s

theorem keeps_withdrawHostReads (s : State) : Keeps s s.withdrawHostReads :=
  (keeps_withdrawBoth ..).trans (keeps_withdrawBoth ..)

theorem keeps_advanceRead (s : State) (ps : List ReadPage) : Keeps s (s.advanceRead ps) := by
  have h : ∀ (t : State) (qs : List ReadPage), Keeps t
      (if qs.any ReadPage.open? then { t with port := .reading qs }
       else qs.foldl State.pageRequest (t.answer (readAnswer qs))) := fun t qs => by
    split
    · exact keeps_port ..
    · exact (keeps_answer ..).trans (Keeps.foldl _ (fun _ _ => keeps_pageRequest ..) _ _)
  unfold State.advanceRead
  refine Keeps.trans ?_ (h _ _)
  split
  · exact keeps_withdrawHostReads ..
  · exact .refl s

theorem keeps_postPage (s : State) (b : Bool) (rp : ReadPage) : Keeps s (s.postPage b rp) := by
  unfold State.postPage; split
  · exact keeps_post ..
  · exact .refl s

theorem keeps_postPages (s : State) (ps : List ReadPage) : Keeps s (s.postPages ps) := by
  unfold State.postPages; split
  · exact .refl s
  · exact keeps_postPage ..
  · exact (keeps_postPage ..).trans (keeps_postPage ..)

theorem keeps_takeRead (s : State) (addr len : Nat) : Keeps s (s.takeRead addr len) := by
  unfold State.takeRead
  dsimp only
  repeat' split
  all_goals first | exact keeps_answer .. | exact (keeps_postPages ..).trans (keeps_advanceRead ..)

theorem keeps_setProgress (s : State) (b : Bool) (g : ReadProgress) : Keeps s (s.setProgress b g) := by
  unfold State.setProgress; split
  · exact keeps_advanceRead ..
  · exact .refl s

theorem keeps_takeRequest (s : State) (r : HostRequest) : Keeps s (s.takeRequest r) := by
  cases r
  · exact keeps_takeWrite ..
  · exact keeps_takeRead ..

theorem keeps_link (s : State) (q : List HostRequest) : Keeps s { s with link := q } :=
  ⟨rfl, rfl, rfl, rfl, rfl, rfl, rfl, rfl, rfl, rfl, rfl, rfl, rfl, rfl, rfl, .inl rfl, rfl, List.prefix_rfl, id, id, id, id, id⟩

theorem keeps_serveLink (s : State) : Keeps s s.serveLink := by
  refine Keeps.foldl _ (fun t r => ?_) _ _
  split
  · exact (keeps_link ..).trans (keeps_takeRequest ..)
  · exact .refl t

/-! ### The commit engine -/

theorem keeps_beginProgram (s : State) (l : LaneId) (op : Op) : Keeps s (s.beginProgram l op) :=
  keeps_modLane _ _ _ fun _ h => h

theorem keeps_startCommit (s : State) (l : LaneId) (k i q : Nat) : Keeps s (s.startCommit l k i q) := by
  unfold State.startCommit; split
  · exact .refl s
  · exact (keeps_bumpWear ..).trans (keeps_beginProgram ..)

theorem keeps_allocate (s : State) (l : LaneId) (k : Nat) (sl : Slot) (i : Nat) :
    Keeps s (s.allocate l k sl i) := by
  unfold State.allocate
  refine Keeps.trans ?_ (keeps_recompute _)
  refine Keeps.trans ?_ (keeps_takeSeq _)
  refine Keeps.trans ?_ (keeps_queue _ _)
  refine Keeps.trans ?_ (keeps_setSlot _ _ _)
  refine Keeps.trans ?_ (keeps_modLane _ l _ fun _ h => h)
  exact keeps_setPage ..

theorem keeps_dispatch (s : State) (l : LaneId) (k : Nat) (sl : Slot) (ready : Bool) :
    Keeps s (s.dispatch l k sl ready) := by
  unfold State.dispatch; split
  · exact .refl s
  · split
    · exact (keeps_allocate ..).trans (keeps_startCommit ..)
    · exact keeps_allocate ..

theorem keeps_discardSlot (s : State) (k : Nat) : Keeps s (s.discardSlot k) :=
  (keeps_queue ..).trans (keeps_freeSlot ..)

theorem keeps_commitSelect (s : State) (l : LaneId) (ready : Bool) (n : Nat) :
    Keeps s (s.commitSelect l ready n) := by
  induction n generalizing s with
  | zero => exact .refl s
  | succ n ih =>
    unfold State.commitSelect
    split
    · exact .refl s
    · split
      · exact .refl s
      · split
        · split
          · exact keeps_dispatch ..
          · exact (keeps_discardSlot ..).trans (ih _)
        · exact keeps_dispatch ..

theorem keeps_adopt (s : State) (n : Nat) (p : PPage) (q : Nat) : Keeps s (s.adopt n p q).1 := by
  have h : Keeps s ((s.setEntry n (.mapped p q)).setPage p { s.page p with state := .mapped n }) :=
    (keeps_setEntry ..).trans (keeps_setPage ..)
  unfold State.adopt
  dsimp only
  split
  · split
    · exact h.trans (keeps_release ..)
    · exact keeps_release ..
  · exact h

theorem keeps_noteMove (s : State) (sl : Slot) (p : PPage) (o : Option PPage) : Keeps s (s.noteMove sl p o) := by
  unfold State.noteMove; split
  · exact keeps_give ..
  · exact keeps_give ..
  · exact .refl s

theorem keeps_completeCommit (s : State) (l : LaneId) (k i q : Nat) : Keeps s (s.completeCommit l k i q) := by
  unfold State.completeCommit; split
  · exact keeps_endOp ..
  · exact (keeps_adopt ..).trans ((keeps_recompute ..).trans ((keeps_noteMove ..).trans ((keeps_endOp ..).trans
      ((keeps_freeSlot ..).trans (keeps_exhaust ..)))))

theorem keeps_countVerifyFailure (s : State) : Keeps s s.countVerifyFailure :=
  ⟨rfl, rfl, rfl, rfl, rfl, rfl, rfl, rfl, rfl, rfl, rfl, rfl, rfl, rfl, rfl, .inl rfl, rfl, List.prefix_rfl, id, id, id, id, id⟩

theorem keeps_failCommit (s : State) (l : LaneId) (k i : Nat) : Keeps s (s.failCommit l k i) := by
  unfold State.failCommit; split
  · exact keeps_endOp ..
  · rename_i sl _
    have h : ∀ p n o, Keeps s ((((s.retire p).give n).countVerifyFailure.endOp l).setSlot k o) := fun p n o =>
      (keeps_retire s p).trans ((keeps_give _ n).trans ((keeps_countVerifyFailure _).trans
        ((keeps_endOp _ l).trans (keeps_setSlot _ k o))))
    dsimp only
    split
    · exact (h _ _ _).trans ((keeps_enqueueHead ..).trans (keeps_exhaust ..))
    · exact (h _ _ _).trans ((keeps_dropSlot ..).trans (keeps_exhaust ..))

theorem keeps_loseCommit (s : State) (l : LaneId) (k i : Nat) : Keeps s (s.loseCommit l k i) := by
  unfold State.loseCommit; split
  · exact .refl s
  · rename_i sl _
    dsimp only
    split
    · exact (keeps_release ..).trans (keeps_freeSlot ..)
    · exact (keeps_release ..).trans ((keeps_setSlot ..).trans (keeps_enqueueHead ..))

theorem keeps_discardBound (s : State) (l : LaneId) : Keeps s (s.discardBound l) :=
  Keeps.foldl _ (fun _ _ => keeps_discardSlot ..) _ _

/-! ### The lanes -/

theorem keeps_startRead (s : State) (l : LaneId) (r : Reader) (n i q : Nat) (ready : Bool) :
    Keeps s (s.startRead l r n i q ready) := keeps_modLane _ _ _ fun _ h => h

theorem keeps_seqTaken (s : State) : Keeps s s.seqTaken := by
  unfold State.seqTaken; split
  · exact .refl s
  · exact (keeps_recompute ..).trans (keeps_exhaust ..)

theorem keeps_startMark (s : State) (l : LaneId) (i : Nat) : Keeps s (s.startMark l i) := by
  unfold State.startMark; split
  · exact keeps_endOp ..
  · exact (keeps_bumpWear ..).trans ((keeps_takeSeq ..).trans ((keeps_beginProgram ..).trans (keeps_seqTaken ..)))

theorem keeps_startRecord (s : State) (i : Nat) (c : WorkCfg) (base : Nat) :
    Keeps s (s.startRecord i c base) := by
  unfold State.startRecord; split
  · exact (keeps_endOp ..).trans (keeps_finishLong ..)
  · exact (keeps_bumpWear ..).trans ((keeps_takeSeq ..).trans ((keeps_beginProgram ..).trans (keeps_seqTaken ..)))

theorem keeps_grantRecord (s : State) (ready : Bool) : Keeps s (s.grantRecord ready) := by
  unfold State.grantRecord; split
  · exact keeps_finishLong ..
  · dsimp only
    split
    · refine Keeps.trans ?_ (keeps_startRecord _ _ _ _)
      exact keeps_modLane _ _ _ fun _ h => h
    · exact keeps_modLane _ _ _ fun _ h => h

theorem keeps_issue (s : State) (l : LaneId) : Keeps s (s.issue l) := by
  unfold State.issue; split
  · exact keeps_modLane _ _ _ fun _ h => h
  · exact keeps_startCommit ..
  · exact keeps_startRecord ..
  · exact keeps_startMark ..
  · exact .refl s

theorem keeps_takeOffline (s : State) (l : LaneId) (p : Option Nat) (c : Nat) : Keeps s (s.takeOffline l p c) :=
  (keeps_modLane _ _ _ fun _ _ => Nat.zero_le _).trans ((keeps_give ..).trans (keeps_flag ..))

theorem keeps_patrolRead (s : State) (r : Option (Nat × PPage)) : Keeps s { s with patrolRead := r } :=
  ⟨rfl, rfl, rfl, rfl, rfl, rfl, rfl, rfl, rfl, rfl, rfl, rfl, rfl, rfl, rfl, .inl rfl, rfl, List.prefix_rfl, id, id, id, id, id⟩

theorem keeps_endLostOp (s : State) (l : LaneId) (op : Option Op) (b held : Bool) :
    Keeps s (s.endLostOp l op b held) := by
  unfold State.endLostOp; split
  · exact .refl s
  · exact keeps_setProgress ..
  · exact keeps_fillLost ..
  · exact keeps_dropRelocHead ..
  · exact keeps_patrolRead ..
  · exact keeps_loseCommit ..
  · exact keeps_finishLong ..
  · exact .refl s

theorem keeps_answerLost (held : Bool) (s : State) (c : Claim) : Keeps s (s.answerLost held c) := by
  cases c
  · exact keeps_setProgress ..
  · exact keeps_fillLost ..
  · exact keeps_finishLong ..
  · exact .refl s
  · exact .refl s
  · exact .refl s
  · exact keeps_patrolRead ..

theorem keeps_loseLane (s : State) (l : LaneId) (p : Option Nat) (c : Nat) : Keeps s (s.loseLane l p c) :=
  (keeps_takeOffline ..).trans ((keeps_endLostOp ..).trans ((keeps_discardBound ..).trans
    ((Keeps.foldl _ (fun _ _ => keeps_answerLost ..) _ _).trans ((keeps_recompute ..).trans (keeps_exhaust ..)))))

/-! ### The end of a step -/

theorem keeps_refreshCommit (s : State) (l : LaneId) : Keeps s (s.refreshCommit l) := by
  unfold State.refreshCommit
  repeat' split
  all_goals first | exact .refl s | exact keeps_post .. | exact keeps_withdrawCommit ..

theorem keeps_refreshMark (s : State) (l : LaneId) : Keeps s (s.refreshMark l) := by
  unfold State.refreshMark
  repeat' split
  all_goals first | exact .refl s | exact keeps_post .. | exact keeps_withdraw ..

theorem keeps_postReloc (s : State) : Keeps s s.postReloc := by
  have h : Keeps s { s with relocList := s.relocList.dropWhile s.relocStale } :=
    ⟨rfl, rfl, rfl, rfl, rfl, rfl, rfl, rfl, rfl, rfl, rfl, rfl, rfl, rfl, rfl, .inl rfl, rfl, List.prefix_rfl, id, id,
      fun h => (List.dropWhile_sublist _).length_le.trans h, id, id⟩
  unfold State.postReloc
  dsimp only
  split
  · exact h
  · exact h.trans (keeps_post ..)

theorem keeps_refreshReloc (s : State) : Keeps s s.refreshReloc := by
  unfold State.refreshReloc
  repeat' split
  all_goals first | exact .refl s | exact keeps_withdrawBoth .. | exact keeps_postReloc ..

theorem keeps_refreshLines (s : State) : Keeps s s.refreshLines :=
  ⟨rfl, rfl, rfl, rfl, rfl, rfl, rfl, rfl, rfl, rfl, rfl, rfl, rfl, rfl, rfl, .inl rfl, rfl, List.prefix_rfl, id, id, id, id, id⟩

theorem keeps_refresh (s : State) : Keeps s s.refresh :=
  (keeps_refreshCommit ..).trans ((keeps_refreshCommit ..).trans ((keeps_refreshMark ..).trans
    ((keeps_refreshMark ..).trans ((keeps_refreshReloc ..).trans (keeps_refreshLines ..)))))

theorem keeps_settle (s : State) : Keeps s s.settle := (keeps_serveLink ..).trans (keeps_refresh ..)

end Sys2Proof.Machine
end

