-- ==== Sys2Proof/Laws/Bounds.lean ====
section
/-! SUPPORT. What the operations outside `Keeps` keep too: the changes of mode, the mount, the configuration and the
map of a record command. -/

namespace Sys2Proof.Machine

/-- The queue of commands, the geometry with its straps, and the bounds of the lists and counts are kept. -/
structure Bounds (s t : State) : Prop where
  pending : t.pending = s.pending
  straps : t.pins.straps = s.pins.straps
  geometry : t.geometry = s.geometry
  slots : t.slots.length = s.slots.length
  notices : s.notices.length ≤ Config.noticeCapacity → t.notices.length ≤ Config.noticeCapacity
  dropped : s.dropped ≤ Config.droppedMax → t.dropped ≤ Config.droppedMax
  reloc : s.relocList.length ≤ Config.relocCapacity → t.relocList.length ≤ Config.relocCapacity
  passA : s.laneA.passOver ≤ Config.passOverLimit → t.laneA.passOver ≤ Config.passOverLimit
  passB : s.laneB.passOver ≤ Config.passOverLimit → t.laneB.passOver ≤ Config.passOverLimit

variable {s t u : State}

theorem Bounds.refl (s : State) : Bounds s s := ⟨rfl, rfl, rfl, rfl, id, id, id, id, id⟩

theorem Bounds.trans (h : Bounds s t) (g : Bounds t u) : Bounds s u where
  pending := g.pending.trans h.pending
  straps := g.straps.trans h.straps
  geometry := g.geometry.trans h.geometry
  slots := g.slots.trans h.slots
  notices := g.notices ∘ h.notices
  dropped := g.dropped ∘ h.dropped
  reloc := g.reloc ∘ h.reloc
  passA := g.passA ∘ h.passA
  passB := g.passB ∘ h.passB

theorem Keeps.bounds (h : Keeps s t) : Bounds s t :=
  ⟨h.pending, congrArg Pins.straps h.pins, h.geometry, h.slots, h.notices, h.dropped, h.reloc, h.passA, h.passB⟩

theorem Bounds.foldl {α : Type} (f : State → α → State) (hf : ∀ t a, Bounds t (f t a)) (l : List α) (s : State) :
    Bounds s (l.foldl f s) := by
  induction l generalizing s with
  | nil => exact .refl s
  | cons a l ih => exact (hf s a).trans (ih _)

/-! ### Modes -/

theorem bounds_startTimer (s : State) : Bounds s s.startTimer := ⟨rfl, rfl, rfl, rfl, id, id, id, id, id⟩

theorem bounds_withdrawPatrol (s : State) : Bounds s s.withdrawPatrol := by
  unfold State.withdrawPatrol; split
  · exact ((keeps_withdrawBoth ..).trans (keeps_patrolRead ..)).bounds
  · exact .refl s

theorem bounds_drainStart (s : State) : Bounds s s.drainStart := by
  unfold State.drainStart
  refine Bounds.trans ?_ (bounds_withdrawPatrol _)
  refine Bounds.trans ?_ (keeps_withdrawBoth _ _).bounds
  exact (keeps_sealAll s).bounds.trans ⟨rfl, rfl, rfl, rfl, id, id, id, id, id⟩

theorem bounds_drainEnd (s : State) : Bounds s s.drainEnd := ⟨rfl, rfl, rfl, rfl, id, id, id, id, id⟩

theorem bounds_setCauses (s : State) (c : Causes) : Bounds s (s.setCauses c) := by
  have h : Bounds s { s with causes := c } := ⟨rfl, rfl, rfl, rfl, id, id, id, id, id⟩
  unfold State.setCauses
  dsimp only
  repeat' split
  · exact h
  · exact h.trans (bounds_drainStart _)
  · exact h.trans (bounds_drainEnd _)
  · exact h

theorem bounds_setPwarn (s : State) (level : Bool) : Bounds s (s.setPwarn level) := by
  unfold State.setPwarn
  dsimp only
  split
  · refine Bounds.trans ?_ (bounds_setCauses _ _)
    exact ⟨rfl, rfl, rfl, rfl, id, id, id, id, id⟩
  · exact ⟨rfl, rfl, rfl, rfl, id, id, id, id, id⟩

/-! ### The mount -/

theorem keeps_judgeClass (s : State) (c : Classed) : Keeps s (s.judgeClass c) := by
  unfold State.judgeClass; split <;> exact keeps_setPage ..

theorem keeps_noteTorn (s : State) (n d : Nat) (c : Candidate) : Keeps s (s.noteTorn n d c) :=
  (keeps_give ..).trans (keeps_flag ..)

theorem keeps_mapChosen (s : State) (n : Nat) (c : Candidate) : Keeps s (s.mapChosen n c) :=
  (keeps_setEntry ..).trans (keeps_setPage ..)

theorem keeps_chooseCopy (s : State) (n : Nat) (cs : List Candidate) : Keeps s (s.chooseCopy n cs) := by
  unfold State.chooseCopy; split
  · exact (Keeps.foldl _ (fun _ _ => keeps_noteTorn ..) _ _).trans (keeps_mapChosen ..)
  · split
    · exact .refl s
    · exact (keeps_noteTorn ..).trans (keeps_mapChosen ..)

theorem keeps_remap (s : State) (r : List RemapEntry) : Keeps s { s with remap := r } :=
  ⟨rfl, rfl, rfl, rfl, rfl, rfl, rfl, rfl, rfl, rfl, rfl, rfl, rfl, rfl, rfl, .inl rfl, rfl, List.prefix_rfl,
    id, id, id, id, id⟩

theorem keeps_retireMarked (s : State) (l : LaneId) : Keeps s (s.retireMarked l) :=
  Keeps.foldl _ (fun _ _ => keeps_setPage ..) _ _

theorem keeps_choosePhase (s : State) (m : Mount) : Keeps s (s.choosePhase m) := by
  unfold State.choosePhase
  refine Keeps.trans ?_ (keeps_retireMarked _ _)
  refine Keeps.trans ?_ (keeps_retireMarked _ _)
  refine Keeps.trans ?_ (Keeps.foldl _ (fun _ _ => keeps_chooseCopy ..) _ _)
  exact (Keeps.foldl _ (fun _ _ => keeps_judgeClass ..) _ s).trans (keeps_remap ..)

theorem keeps_seq (s : State) (q : Nat) : Keeps s { s with seq := q } :=
  ⟨rfl, rfl, rfl, rfl, rfl, rfl, rfl, rfl, rfl, rfl, rfl, rfl, rfl, rfl, rfl, .inl rfl, rfl, List.prefix_rfl,
    id, id, id, id, id⟩

theorem keeps_rebuildPhase (s : State) (m : Mount) : Keeps s (s.rebuildPhase m) := by
  unfold State.rebuildPhase
  refine Keeps.trans ?_ (keeps_give _ _)
  refine Keeps.trans ?_ (keeps_recompute _)
  refine Keeps.trans ?_ (keeps_seq _ _)
  refine Keeps.trans ?_ (keeps_modLane _ _ _ fun _ h => h)
  exact keeps_modLane _ _ _ fun _ h => h

theorem bounds_leaveMount (s : State) : Bounds s s.leaveMount := by
  have h : Bounds s ({ s with mount := none, mode := s.modeNow }).clampCursor :=
    ⟨rfl, rfl, rfl, rfl, id, id, id, id, id⟩
  have h2 : ∀ t : State, Bounds t (if t.mode = .run then t.startTimer else t) := fun t => by
    split
    · exact bounds_startTimer t
    · exact .refl t
  have h3 : ∀ (t : State) r, Bounds t (if t.longCmd = some .remount then t.finishLong r none else t) := fun t r => by
    split
    · exact (keeps_finishLong ..).bounds
    · exact .refl t
  unfold State.leaveMount
  refine Bounds.trans ?_ (h3 _ _)
  refine Bounds.trans ?_ (h2 _)
  exact h

theorem bounds_finishMount (s : State) (m : Mount) : Bounds s (s.finishMount m) :=
  ((keeps_choosePhase ..).trans (keeps_rebuildPhase ..)).bounds.trans (bounds_leaveMount _)

theorem bounds_mount (s : State) (m : Option Mount) : Bounds s { s with mount := m } :=
  ⟨rfl, rfl, rfl, rfl, id, id, id, id, id⟩

theorem bounds_scanAdvance (s : State) (m : Mount) : Bounds s (s.scanAdvance m) := by
  unfold State.scanAdvance; split
  · exact bounds_finishMount ..
  · exact bounds_mount ..

theorem keeps_settleSuspect (l : LaneId) (w : Nat) (s : State) (c : Classed) : Keeps s (s.settleSuspect l w c) := by
  unfold State.settleSuspect; split
  · exact keeps_setPage ..
  · exact .refl s

theorem keeps_settleSuspects (s : State) (m : Mount) (l : LaneId) : Keeps s (s.settleSuspects m l) :=
  Keeps.foldl _ (fun _ _ => keeps_settleSuspect ..) _ _

theorem bounds_scanOnward (s : State) (m : Mount) (l : LaneId) : Bounds s (s.scanOnward m l) := by
  unfold State.scanOnward; split
  · exact (keeps_settleSuspects ..).bounds.trans (bounds_scanAdvance ..)
  · exact bounds_scanAdvance ..

theorem bounds_enterScan (s : State) (m : Mount) : Bounds s (s.enterScan m) := bounds_scanAdvance ..

theorem bounds_loadRecord (s : State) (m : Mount) : Bounds s (s.loadRecord m) := by
  unfold State.loadRecord; split <;> exact ⟨rfl, rfl, rfl, rfl, id, id, id, id, id⟩

theorem bounds_endRecord (s : State) (m : Mount) : Bounds s (s.endRecord m) :=
  (bounds_loadRecord ..).trans (bounds_enterScan ..)

theorem bounds_waitAdvance (s : State) (m : Mount) : Bounds s (s.waitAdvance m) := by
  unfold State.waitAdvance
  repeat' split
  all_goals first | exact bounds_mount .. | exact bounds_endRecord ..

theorem bounds_mountReady (s : State) (l : LaneId) : Bounds s (s.mountReady l) := by
  unfold State.mountReady; split
  · exact .refl s
  · split
    · refine Bounds.trans (Keeps.bounds ?_) (bounds_waitAdvance _ _)
      exact keeps_modLane _ _ _ fun _ h => h
    · exact .refl s

theorem bounds_systemRead (s : State) (bytes : List Byte) : Bounds s (s.systemRead bytes) := by
  unfold State.systemRead; split
  · exact .refl s
  · split
    · dsimp only
      split
      · exact (keeps_setPage ..).bounds.trans (bounds_mount ..)
      · exact (keeps_setPage ..).bounds.trans (bounds_endRecord ..)
    · exact .refl s

theorem keeps_noteClass (s : State) (p : PPage) (c : Option (PageClass × Option Nat)) :
    Keeps s (s.noteClass p c) := by
  unfold State.noteClass; split
  · exact keeps_give ..
  · exact .refl s

theorem bounds_scanRead (s : State) (l : LaneId) (bytes : List Byte) : Bounds s (s.scanRead l bytes) := by
  unfold State.scanRead; split
  · exact .refl s
  · split
    · exact .refl s
    · split
      · exact ((keeps_setPage ..).trans (keeps_noteClass ..)).bounds.trans (bounds_scanOnward ..)
      · exact .refl s

theorem bounds_mountAfterLoss (s : State) (l : LaneId) : Bounds s (s.mountAfterLoss l) := by
  unfold State.mountAfterLoss; split
  · exact .refl s
  · dsimp only
    repeat' split
    all_goals first
      | exact .refl s
      | exact bounds_waitAdvance ..
      | exact bounds_endRecord ..
      | exact bounds_mount ..
      | exact bounds_scanOnward ..
      | exact bounds_scanAdvance ..

theorem bounds_mountLose (s : State) (l : LaneId) (p : Option Nat) (c : Nat) : Bounds s (s.mountLose l p c) := by
  unfold State.mountLose
  refine Bounds.trans ?_ (bounds_mountAfterLoss _ _)
  refine Bounds.trans ?_ (keeps_takeOffline _ _ _ _).bounds
  split
  · exact (keeps_patrolRead ..).bounds
  · exact .refl s

theorem bounds_endReadAtMount (s : State) : Bounds s s.endReadAtMount := by
  unfold State.endReadAtMount; split
  · exact ((keeps_withdrawHostReads ..).trans (keeps_answer ..)).bounds
  · exact .refl s

theorem bounds_beginRemount (s : State) : Bounds s s.beginRemount :=
  (bounds_endReadAtMount s).trans
    ⟨rfl, rfl, rfl, rfl, id, id, fun _ => Nat.zero_le _, fun _ => Nat.zero_le _, fun _ => Nat.zero_le _⟩

/-! ### The patrol unit -/

theorem bounds_patrolExpiry (s : State) : Bounds s s.patrolExpiry := by
  unfold State.patrolExpiry
  refine (bounds_startTimer s).trans ?_
  unfold State.patrolSearch; split
  · have h : ∀ (t : State) n, Bounds t (t.advanceCursor n) := fun t n => ⟨rfl, rfl, rfl, rfl, id, id, id, id, id⟩
    exact (h _ _).trans ((keeps_post ..).trans (keeps_patrolRead ..)).bounds
  · exact .refl _

theorem keeps_relocationGrant (s : State) (l : LaneId) (ready : Bool) : Keeps s (s.relocationGrant l ready) := by
  unfold State.relocationGrant; split
  · exact .refl s
  · split
    · rename_i hl _
      refine ⟨rfl, rfl, rfl, rfl, rfl, rfl, rfl, rfl, rfl, rfl, rfl, rfl, rfl, rfl, rfl, .inl rfl, rfl,
        List.prefix_rfl, id, id, fun h => ?_, id, id⟩
      rw [hl, List.length_cons] at h
      exact Nat.le_of_succ_le h
    · exact keeps_startRead ..

theorem keeps_patrolGrant (s : State) (l : LaneId) (ready : Bool) : Keeps s (s.patrolGrant l ready) := by
  unfold State.patrolGrant; split
  · exact .refl s
  · split
    · exact keeps_patrolRead ..
    · exact keeps_startRead ..

theorem keeps_relocationOutcome (s : State) (n : Nat) (p : PPage) (d : Decoded) :
    Keeps s (s.relocationOutcome n p d) := by
  unfold State.relocationOutcome; split
  · exact keeps_dropRelocHead ..
  · split
    · rename_i h
      exact (keeps_createSlot h).trans (keeps_dropRelocHead ..)
    · exact .refl s

theorem keeps_createSlot_getD (s : State) (n : Nat) (o : Origin) (data : List Byte) (p : BitVec 8) :
    Keeps s ((s.createSlot n o data p).getD s) := by
  cases h : s.createSlot n o data p with
  | none => exact .refl s
  | some t => exact keeps_createSlot h

theorem keeps_patrolOutcome (s : State) (n : Nat) (p : PPage) (d : Decoded) : Keeps s (s.patrolOutcome n p d) := by
  unfold State.patrolOutcome; split
  · exact .refl s
  · split
    · unfold State.weakened; split
      · rename_i h
        split
        · exact keeps_createSlot h
        · exact (keeps_createSlot h).trans (keeps_bumpSoft ..)
      · exact keeps_relocRequest ..
    · split
      · exact keeps_createSlot_getD ..
      · unfold State.sound; split
        · exact keeps_createSlot_getD ..
        · exact .refl s

/-! ### Grants -/

theorem keeps_regrantPage (s : State) (l : LaneId) (b ready : Bool) (rp : ReadPage) :
    Keeps s (s.regrantPage l b ready rp) := by
  unfold State.regrantPage; split
  · exact keeps_setProgress ..
  · split
    · exact keeps_setProgress ..
    · exact keeps_setProgress ..
    · split
      · exact (keeps_startRead ..).trans (keeps_setProgress ..)
      · exact (keeps_post ..).trans (keeps_setProgress ..)

theorem keeps_grantHostRead (s : State) (l : LaneId) (b ready : Bool) : Keeps s (s.grantHostRead l b ready) := by
  unfold State.grantHostRead; split
  · exact .refl s
  · exact keeps_regrantPage ..

theorem keeps_grantFillRead (s : State) (l : LaneId) (k : Nat) (ready : Bool) :
    Keeps s (s.grantFillRead l k ready) := by
  unfold State.grantFillRead; split
  · exact .refl s
  · split
    · exact keeps_completeFill ..
    · split
      · exact keeps_completeFill ..
      · split
        · exact keeps_startRead ..
        · exact keeps_post ..
      · exact keeps_completeFill ..
      · exact keeps_fillWithoutSource ..

theorem keeps_grantCommit (s : State) (l : LaneId) (ready : Bool) : Keeps s (s.grantCommit l ready) :=
  keeps_commitSelect ..

theorem keeps_grantMark (s : State) (l : LaneId) (ready : Bool) : Keeps s (s.grantMark l ready) := by
  unfold State.grantMark; split
  · exact .refl s
  · dsimp only
    split
    · refine Keeps.trans ?_ (keeps_startMark _ _ _)
      exact keeps_modLane _ _ _ fun _ h => h
    · exact keeps_modLane _ _ _ fun _ h => h

/-! ### Completions -/

theorem keeps_readEnds (s : State) (l : LaneId) (n i : Nat) (d : Decoded) : Keeps s (s.readEnds l n i d) :=
  (keeps_endOp ..).trans (keeps_readEffects ..)

theorem keeps_takeCopy (s : State) (b : Bool) (p : PPage) (d : Decoded) : Keeps s (s.takeCopy b p d) := by
  unfold State.takeCopy; split
  · exact .refl s
  · split
    · exact keeps_setProgress ..
    · exact .refl s

theorem keeps_hostReadDone (s : State) (l : LaneId) (b : Bool) (n i q : Nat) (bytes : List Byte) :
    Keeps s (s.hostReadDone l b n i q bytes) := by
  unfold State.hostReadDone; split
  · exact keeps_endOp ..
  · exact (keeps_readEnds ..).trans (keeps_takeCopy ..)

theorem keeps_fillFromCopy (s : State) (k : Nat) (p : PPage) (d : Decoded) : Keeps s (s.fillFromCopy k p d) := by
  unfold State.fillFromCopy; split
  · exact .refl s
  · refine Keeps.trans ?_ (keeps_completeFill _ _ _ _)
    split
    · exact keeps_bumpSoft ..
    · exact .refl s

theorem keeps_fillReadDone (s : State) (l : LaneId) (k n i q : Nat) (bytes : List Byte) :
    Keeps s (s.fillReadDone l k n i q bytes) := by
  unfold State.fillReadDone; split
  · exact keeps_endOp ..
  · exact (keeps_readEnds ..).trans (keeps_fillFromCopy ..)

theorem keeps_relocationDone (s : State) (l : LaneId) (n i q : Nat) (bytes : List Byte) :
    Keeps s (s.relocationDone l n i q bytes) := by
  unfold State.relocationDone; split
  · exact keeps_endOp ..
  · exact (keeps_readEnds ..).trans (keeps_relocationOutcome ..)

theorem keeps_patrolDone (s : State) (l : LaneId) (n i q : Nat) (bytes : List Byte) :
    Keeps s (s.patrolDone l n i q bytes) := by
  unfold State.patrolDone; split
  · exact (keeps_endOp ..).trans (keeps_patrolRead ..)
  · exact (keeps_readEnds ..).trans ((keeps_patrolRead ..).trans (keeps_patrolOutcome ..))

theorem keeps_commitProgrammed (s : State) (l : LaneId) (k i q : Nat) (data : List Byte) :
    Keeps s (s.commitProgrammed l k i q data) := by
  unfold State.commitProgrammed
  refine Keeps.trans ?_ (keeps_modSlot _ _ _)
  exact keeps_modLane _ _ _ fun _ h => h

theorem keeps_commitVerified (s : State) (l : LaneId) (k i q : Nat) (data bytes : List Byte) :
    Keeps s (s.commitVerified l k i q data bytes) := by
  unfold State.commitVerified; split
  · exact keeps_completeCommit ..
  · exact keeps_failCommit ..

theorem keeps_recordProgrammed (s : State) (i : Nat) (c : WorkCfg) (base q : Nat) (data : List Byte) :
    Keeps s (s.recordProgrammed i c base q data) := keeps_modLane _ _ _ fun _ h => h

theorem keeps_releaseEntry (s : State) (n : Nat) : Keeps s (s.releaseEntry n) := by
  unfold State.releaseEntry; split
  · exact keeps_release ..
  · exact .refl s

theorem bounds_resize (s : State) (n : Nat) : Bounds s (s.resize n) := by
  unfold State.resize
  refine (Keeps.foldl State.releaseEntry (fun t a => keeps_releaseEntry t a)
    (List.range' n (s.cfg.capacity - n)) s).bounds.trans ?_
  have h : ∀ t : State, Bounds t t.clampCursor := fun t => ⟨rfl, rfl, rfl, rfl, id, id, id, id, id⟩
  refine Bounds.trans ?_ (h _)
  refine Bounds.trans ?_ (keeps_recompute _).bounds
  exact ⟨rfl, rfl, rfl, rfl, id, id, id, id, id⟩

theorem bounds_formatMap (s : State) (base : Nat) : Bounds s (s.formatMap base) := by
  unfold State.formatMap
  refine (Keeps.foldl State.releaseEntry (fun t a => keeps_releaseEntry t a)
    (List.range s.cfg.capacity) s).bounds.trans ?_
  refine Bounds.trans ?_ (keeps_recompute _).bounds
  exact ⟨rfl, rfl, rfl, rfl, id, id, fun _ => Nat.zero_le _, id, id⟩

theorem bounds_applyRecord (s : State) (base : Nat) : Bounds s (s.applyRecord base) := by
  unfold State.applyRecord; split
  · exact bounds_resize ..
  · exact bounds_formatMap ..
  · exact .refl s

theorem bounds_recordVerified (s : State) (i base : Nat) (data bytes : List Byte) :
    Bounds s (s.recordVerified i base data bytes) := by
  unfold State.recordVerified; split
  · refine (keeps_endOp s .a).bounds.trans ?_
    refine Bounds.trans ?_ (keeps_finishLong _ _ _).bounds
    refine Bounds.trans ?_ (bounds_applyRecord _ _)
    exact ⟨rfl, rfl, rfl, rfl, id, id, id, id, id⟩
  · exact ((keeps_endOp ..).trans (keeps_finishLong ..)).bounds

theorem bounds_markDone (s : State) (l : LaneId) (i : Nat) : Bounds s (s.markDone l i) := by
  unfold State.markDone
  refine (Keeps.trans ?_ (keeps_endOp _ _)).bounds
  exact keeps_modLane _ _ _ fun _ h => h

/-! ### Timers -/

theorem bounds_goOffline (s : State) (l : LaneId) (p : Option Nat) (c : Nat) : Bounds s (s.goOffline l p c) := by
  unfold State.goOffline; split
  · exact bounds_mountLose ..
  · exact (keeps_loseLane ..).bounds

theorem keeps_readyComes (s : State) (l : LaneId) : Keeps s (s.readyComes l) := by
  unfold State.readyComes
  refine Keeps.trans ?_ (keeps_issue _ _)
  exact keeps_modLane _ _ _ fun _ h => h

/-! ### The maintenance port -/

theorem bounds_reply (s : State) (status : Nat) (data : List Byte) (b : Bool) :
    Bounds s (s.reply status data b) := ⟨rfl, rfl, rfl, rfl, id, id, id, id, id⟩

theorem bounds_setCfg (s : State) (f : WorkCfg → WorkCfg) : Bounds s (s.setCfg f) :=
  ⟨rfl, rfl, rfl, rfl, id, id, id, id, id⟩

theorem bounds_newInterval (s : State) : Bounds s s.newInterval := by
  unfold State.newInterval
  repeat' split
  · exact ⟨rfl, rfl, rfl, rfl, id, id, id, id, id⟩
  · exact bounds_startTimer s
  · exact .refl s

theorem keeps_retireFree (s : State) (p : PPage) : Keeps s (s.retireFree p) := by
  unfold State.retireFree
  refine Keeps.trans ?_ (keeps_give _ _)
  refine Keeps.trans ?_ (keeps_retire _ _)
  exact keeps_modLane _ _ _ fun _ h => h

theorem bounds_newWearLimit (s : State) (v : Nat) : Bounds s (s.newWearLimit v) := by
  have h : ∀ (t : State) (ps : List PPage), Bounds t (((ps.foldl State.retireFree t).recompute).exhaust) := fun t ps =>
    ((Keeps.foldl _ (fun _ _ => keeps_retireFree ..) ps t).trans
      ((keeps_recompute ..).trans (keeps_exhaust ..))).bounds
  unfold State.newWearLimit
  dsimp only
  split
  · exact (bounds_setCfg ..).trans (h _ _)
  · exact bounds_setCfg ..

theorem bounds_newFloor (s : State) (v : Nat) : Bounds s (s.newFloor v) := by
  unfold State.newFloor
  refine Bounds.trans ?_ (keeps_exhaust _).bounds
  refine Bounds.trans ?_ (keeps_recompute _).bounds
  exact bounds_setCfg ..

theorem bounds_accept (s : State) (c : LongCmd) : Bounds s (s.accept c) :=
  ⟨rfl, rfl, rfl, rfl, id, id, id, id, id⟩

theorem keeps_postRecord (s : State) : Keeps s s.postRecord := by
  unfold State.postRecord; split
  · exact keeps_post ..
  · exact keeps_finishLong ..

theorem bounds_startFlush (s : State) : Bounds s s.startFlush := by
  have h : ∀ t : State, Bounds t t.markFlush := fun t => ⟨rfl, rfl, rfl, by simp [State.markFlush], id, id, id, id, id⟩
  unfold State.startFlush
  dsimp only
  split
  · exact ((keeps_sealAll s).bounds.trans (h _)).trans (keeps_finishLong ..).bounds
  · exact (keeps_sealAll s).bounds.trans (h _)

theorem bounds_startQuiesce (s : State) : Bounds s s.startQuiesce :=
  (bounds_setCauses ..).trans (keeps_quiesceCheck ..).bounds

theorem bounds_clearFaults (s : State) : Bounds s s.clearFaults :=
  ⟨rfl, rfl, rfl, rfl, id, fun _ => Nat.zero_le _, id, id, id⟩

theorem bounds_popSent (s : State) : Bounds s s.popSent := by
  unfold State.popSent; split
  · refine ⟨rfl, rfl, rfl, rfl, fun h => ?_, id, id, id, id⟩
    simp only [List.length_tail]; omega
  · exact .refl s

end Sys2Proof.Machine
end

