-- ==== Sys2Proof/Laws/PerInstr.lean ====
section
/-! SUPPORT. Laws stated of every command, proved one command at a time: the frame of a well-formed command is whole. -/

namespace Sys2Proof

/-- A frame of at most 255 parameter bytes is whole: its length byte counts its parameters (11 R160). -/
theorem frameWhole_makeFrame (code : Byte) {ps : List Byte} (h : ps.length ≤ 255) :
    frameWhole (makeFrame code ps) = true := by
  simp [makeFrame, frameWhole, Nat.mod_eq_of_lt (Nat.lt_succ_of_le h)]

namespace Laws.FrameWhole

/-- A well-formed command that has a frame has a whole one. -/
def Statement (i : Instr) : Prop := i.WellFormed → ∀ frame, encodeFrame i = some frame → frameWhole frame = true

/-- A command that is no frame has no frame to judge. -/
theorem of_none {i : Instr} (h : encodeFrame i = none) : Statement i := fun _ f g => by simp [h] at g

/-- A frame made of a code and parameters whose count fits its length byte. -/
theorem of_frame {i : Instr} {code : Byte} {ps : List Byte} (e : encodeFrame i = some (makeFrame code ps))
    (h : i.WellFormed → ps.length ≤ 255) : Statement i := fun w f g => by
  rw [e] at g; cases g; exact frameWhole_makeFrame _ (h w)

theorem powerOn (straps : Straps) (pwarn wprot : Bool) : Statement (.powerOn straps pwarn wprot) := of_none rfl
theorem resetAssertion (straps : Straps) : Statement (.resetAssertion straps) := of_none rfl
theorem resetDeassertion : Statement .resetDeassertion := of_none rfl
theorem pwarnAssertion : Statement .pwarnAssertion := of_none rfl
theorem pwarnDeassertion : Statement .pwarnDeassertion := of_none rfl
theorem wprotAssertion : Statement .wprotAssertion := of_none rfl
theorem wprotDeassertion : Statement .wprotDeassertion := of_none rfl
theorem hostWrite (addr : Nat) (data : List Byte) : Statement (.hostWrite addr data) := of_none rfl
theorem hostRead (addr len : Nat) : Statement (.hostRead addr len) := of_none rfl
theorem holdTimerExpiry (slot : Nat) : Statement (.holdTimerExpiry slot) := of_none rfl
theorem patrolTimerExpiry : Statement .patrolTimerExpiry := of_none rfl
theorem readTimeout (lane : LaneId) : Statement (.readTimeout lane) := of_none rfl
theorem programTimeout (lane : LaneId) : Statement (.programTimeout lane) := of_none rfl
theorem readyTimeout (lane : LaneId) : Statement (.readyTimeout lane) := of_none rfl
theorem readySeen (lane : LaneId) : Statement (.readySeen lane) := of_none rfl
theorem hostReadGrant (lane : LaneId) (ready : Bool) : Statement (.hostReadGrant lane ready) := of_none rfl
theorem fillReadGrant (lane : LaneId) (ready : Bool) : Statement (.fillReadGrant lane ready) := of_none rfl
theorem recordProgramGrant (ready : Bool) : Statement (.recordProgramGrant ready) := of_none rfl
theorem commitGrant (lane : LaneId) (ready : Bool) : Statement (.commitGrant lane ready) := of_none rfl
theorem relocationReadGrant (lane : LaneId) (ready : Bool) : Statement (.relocationReadGrant lane ready) := of_none rfl
theorem markGrant (lane : LaneId) (ready : Bool) : Statement (.markGrant lane ready) := of_none rfl
theorem patrolReadGrant (lane : LaneId) (ready : Bool) : Statement (.patrolReadGrant lane ready) := of_none rfl
theorem hostReadDone (lane : LaneId) (bytes : List Byte) : Statement (.hostReadDone lane bytes) := of_none rfl
theorem fillReadDone (lane : LaneId) (bytes : List Byte) : Statement (.fillReadDone lane bytes) := of_none rfl
theorem relocationReadDone (lane : LaneId) (bytes : List Byte) : Statement (.relocationReadDone lane bytes) := of_none rfl
theorem patrolReadDone (lane : LaneId) (bytes : List Byte) : Statement (.patrolReadDone lane bytes) := of_none rfl
theorem commitProgramDone (lane : LaneId) : Statement (.commitProgramDone lane) := of_none rfl
theorem commitVerifyDone (lane : LaneId) (bytes : List Byte) : Statement (.commitVerifyDone lane bytes) := of_none rfl
theorem recordProgramDone : Statement .recordProgramDone := of_none rfl
theorem recordReadBackDone (bytes : List Byte) : Statement (.recordReadBackDone bytes) := of_none rfl
theorem markProgramDone (lane : LaneId) : Statement (.markProgramDone lane) := of_none rfl
theorem mountWaitReady (lane : LaneId) : Statement (.mountWaitReady lane) := of_none rfl
theorem systemPageReadDone (bytes : List Byte) : Statement (.systemPageReadDone bytes) := of_none rfl
theorem scanReadDone (lane : LaneId) (bytes : List Byte) : Statement (.scanReadDone lane bytes) := of_none rfl
theorem getStatus (ps : List Byte) : Statement (.getStatus ps) := of_frame rfl fun w => of_decide_eq_true w
theorem getConfig (ps : List Byte) : Statement (.getConfig ps) := of_frame rfl fun w => of_decide_eq_true w
theorem getPools (ps : List Byte) : Statement (.getPools ps) := of_frame rfl fun w => of_decide_eq_true w
theorem getCounters (ps : List Byte) : Statement (.getCounters ps) := of_frame rfl fun w => of_decide_eq_true w
theorem inspectLogical (ps : List Byte) : Statement (.inspectLogical ps) := of_frame rfl fun w => of_decide_eq_true w
theorem inspectPhysical (ps : List Byte) : Statement (.inspectPhysical ps) := of_frame rfl fun w => of_decide_eq_true w
theorem popNotice (ps : List Byte) : Statement (.popNotice ps) := of_frame rfl fun w => of_decide_eq_true w
theorem popNoticeSent : Statement .popNoticeSent := of_none rfl
theorem clearFaults (ps : List Byte) : Statement (.clearFaults ps) := of_frame rfl fun w => of_decide_eq_true w
theorem setHoldTime (value : List Byte) : Statement (.setHoldTime value) := of_frame rfl fun w => Nat.succ_le_succ (of_decide_eq_true w)
theorem setPatrolInterval (value : List Byte) : Statement (.setPatrolInterval value) := of_frame rfl fun w => Nat.succ_le_succ (of_decide_eq_true w)
theorem setMigrationThreshold (value : List Byte) : Statement (.setMigrationThreshold value) := of_frame rfl fun w => Nat.succ_le_succ (of_decide_eq_true w)
theorem setWearLimit (value : List Byte) : Statement (.setWearLimit value) := of_frame rfl fun w => Nat.succ_le_succ (of_decide_eq_true w)
theorem setSoftLimit (value : List Byte) : Statement (.setSoftLimit value) := of_frame rfl fun w => Nat.succ_le_succ (of_decide_eq_true w)
theorem setReserveFloor (value : List Byte) : Statement (.setReserveFloor value) := of_frame rfl fun w => Nat.succ_le_succ (of_decide_eq_true w)
theorem setProgramTimeLimit (value : List Byte) : Statement (.setProgramTimeLimit value) := of_frame rfl fun w => Nat.succ_le_succ (of_decide_eq_true w)
theorem setAttentionMask (value : List Byte) : Statement (.setAttentionMask value) := of_frame rfl fun w => Nat.succ_le_succ (of_decide_eq_true w)
theorem setWindow (ps : List Byte) : Statement (.setWindow ps) := of_frame rfl fun w => of_decide_eq_true w
theorem resume (ps : List Byte) : Statement (.resume ps) := of_frame rfl fun w => of_decide_eq_true w
theorem saveConfig (ps : List Byte) : Statement (.saveConfig ps) := of_frame rfl fun w => of_decide_eq_true w
theorem sealWindow (ps : List Byte) : Statement (.sealWindow ps) := of_frame rfl fun w => of_decide_eq_true w
theorem flush (ps : List Byte) : Statement (.flush ps) := of_frame rfl fun w => of_decide_eq_true w
theorem quiesce (ps : List Byte) : Statement (.quiesce ps) := of_frame rfl fun w => of_decide_eq_true w
theorem setCapacity (ps : List Byte) : Statement (.setCapacity ps) := of_frame rfl fun w => of_decide_eq_true w
theorem format (ps : List Byte) : Statement (.format ps) := of_frame rfl fun w => of_decide_eq_true w
theorem remount (ps : List Byte) : Statement (.remount ps) := of_frame rfl fun w => of_decide_eq_true w
theorem badFrame (frame : List Byte) : Statement (.badFrame frame) := fun w f g => by cases g; exact w
theorem unknownCommand (code : Byte) (ps : List Byte) : Statement (.unknownCommand code ps) := of_frame rfl fun w => of_decide_eq_true w
theorem selectEnd : Statement .selectEnd := of_none rfl
theorem powerLoss : Statement .powerLoss := of_none rfl
theorem selectStart : Statement .selectStart := of_none rfl

end Laws.FrameWhole

end Sys2Proof
end

