-- ==== Sys2Proof/Laws/SerialLine.lean ====
section
/-! SUPPORT. The serial line gives back what is shifted into it: bits clocked in are the bits sampled, and bytes shifted
most significant bit first are the bytes received. -/

namespace Sys2Proof.Machine

theorem byteOfBits_msbFirst : ∀ b : Byte, byteOfBits (msbFirst b) = b := by decide +kernel

theorem lineBits_cons (b : Byte) (bs : List Byte) : lineBits (b :: bs) = msbFirst b ++ lineBits bs := rfl

theorem lineBits_append (bs cs : List Byte) : lineBits (bs ++ cs) = lineBits bs ++ lineBits cs := by
  simp [lineBits]

theorem lineBits_length (bs : List Byte) : (lineBits bs).length = 8 * bs.length := by
  induction bs with
  | nil => rfl
  | cons b bs ih => rw [lineBits_cons, List.length_append, ih, List.length_cons]; simp [msbFirst]; omega

/-- The bytes received are the bytes shifted. -/
theorem bytesOfBits_lineBits (bs : List Byte) : bytesOfBits (lineBits bs) = bs := by
  induction bs with
  | nil => rfl
  | cons b bs ih =>
    rw [lineBits_cons]
    exact congr (congrArg List.cons (byteOfBits_msbFirst b)) ih

/-- The bits sampled are the bits clocked in. -/
theorem sampledBits_clockedLevels (before : Bool) (bits : List Bool) :
    sampledBits before (clockedLevels bits) = bits := by
  induction bits generalizing before with
  | nil => rfl
  | cons b bits ih =>
    have h : clockedLevels (b :: bits) =
        { sclk := false, sdi := b } :: { sclk := true, sdi := b } :: clockedLevels bits := rfl
    rw [h]
    simp [sampledBits, ih]

/-- What a controller clocks in is what the port takes in. -/
theorem shiftedIn_clocked (bs : List Byte) : shiftedIn (clockedLevels (lineBits bs)) = bs := by
  rw [shiftedIn, sampledBits_clockedLevels, bytesOfBits_lineBits]

end Sys2Proof.Machine
end

