-- ==== Sys2Proof/Laws/Settle.lean ====
section
/-! SUPPORT. The end of a step: what it can change (`settled_refresh`), that it only judges claims and lines anew when
no request waits on the link (`settle_of_quiet`), and where the kept claims then stand (`commitClaims_refresh`,
`markClaims_refresh`, `relocationClaims_refresh`). -/

namespace Sys2Proof.Machine

/-! ### One lane -/

/-- The lane is as it was but for its kept claims and its pass-over count: `LaneSettled` but for the count's rule, so that
it composes. -/
def LaneKept (x y : Lane) : Prop :=
  ∃ claims passOver, y = { x with claims := claims, passOver := passOver } ∧
    claims.filter (fun c => !c.kept) = x.claims.filter (fun c => !c.kept)

theorem LaneKept.refl (x : Lane) : LaneKept x x := ⟨x.claims, x.passOver, rfl, rfl⟩

theorem LaneKept.trans {x y z : Lane} (h : LaneKept x y) (g : LaneKept y z) : LaneKept x z := by
  obtain ⟨c, p, rfl, hc⟩ := h
  obtain ⟨d, q, rfl, hd⟩ := g
  exact ⟨d, q, rfl, hd.trans hc⟩

/-- A lane that kept its other claims is settled when its pass-over count follows its COMMIT claim. -/
theorem LaneKept.settled {x y : Lane} (h : LaneKept x y)
    (hp : y.passOver = if x.claims.contains .commit && !y.claims.contains .commit then 0 else x.passOver) :
    LaneSettled x y := by
  obtain ⟨c, p, rfl, hc⟩ := h
  exact ⟨c, by rw [← hp], hc⟩

theorem laneKept_post (x : Lane) {c : Claim} (h : c.kept = true) :
    LaneKept x { x with claims := x.claims ++ [c] } := ⟨_, _, rfl, by simp [h]⟩

/-- Withdrawing a kept claim leaves the other claims in their order. -/
theorem filter_kept_withdraw (cs : List Claim) {c : Claim} (h : c.kept = true) :
    (cs.filter (fun d => d != c)).filter (fun d => !d.kept) = cs.filter (fun d => !d.kept) := by
  simp only [List.filter_filter]
  refine List.filter_congr fun d _ => ?_
  by_cases hd : d = c
  · subst hd; simp [h]
  · simp [hd]

theorem laneKept_withdraw (x : Lane) {c : Claim} (h : c.kept = true) :
    LaneKept x { x with claims := x.claims.filter (fun d => d != c) } :=
  ⟨_, _, rfl, filter_kept_withdraw _ h⟩

theorem laneKept_withdrawCommit (x : Lane) :
    LaneKept x { x with claims := x.claims.filter (fun d => d != .commit), passOver := 0 } :=
  ⟨_, _, rfl, filter_kept_withdraw _ rfl⟩

/-! ### Both lanes and the relocation list -/

/-- The second state is the first but for kept claims, pass-over counts and a shorter relocation list. -/
def ClaimsSettled (s t : State) : Prop :=
  ∃ a b n, t = { s with laneA := a, laneB := b, relocList := s.relocList.drop n } ∧
    LaneKept s.laneA a ∧ LaneKept s.laneB b

theorem ClaimsSettled.refl (s : State) : ClaimsSettled s s :=
  ⟨s.laneA, s.laneB, 0, by simp, .refl _, .refl _⟩

theorem ClaimsSettled.trans {s t u : State} (h : ClaimsSettled s t) (g : ClaimsSettled t u) : ClaimsSettled s u := by
  obtain ⟨a, b, n, rfl, ha, hb⟩ := h
  obtain ⟨c, d, m, rfl, hc, hd⟩ := g
  exact ⟨c, d, n + m, by simp, ha.trans hc, hb.trans hd⟩

theorem claimsSettled_modLane (s : State) (l : LaneId) (f : Lane → Lane) (hf : ∀ x, LaneKept x (f x)) :
    ClaimsSettled s (s.modLane l f) := by
  cases l
  · exact ⟨f s.laneA, s.laneB, 0, rfl, hf _, .refl _⟩
  · exact ⟨s.laneA, f s.laneB, 0, rfl, .refl _, hf _⟩

theorem claimsSettled_post (s : State) (l : LaneId) {c : Claim} (h : c.kept = true) :
    ClaimsSettled s (s.post l c) := claimsSettled_modLane _ _ _ fun x => laneKept_post x h

theorem claimsSettled_withdraw (s : State) (l : LaneId) {c : Claim} (h : c.kept = true) :
    ClaimsSettled s (s.withdraw l c) := claimsSettled_modLane _ _ _ fun x => laneKept_withdraw x h

theorem claimsSettled_withdrawBoth (s : State) {c : Claim} (h : c.kept = true) :
    ClaimsSettled s (s.withdrawBoth c) :=
  (claimsSettled_withdraw s .a h).trans (claimsSettled_withdraw _ .b h)

theorem claimsSettled_refreshCommit (s : State) (l : LaneId) : ClaimsSettled s (s.refreshCommit l) := by
  unfold State.refreshCommit
  repeat' split
  all_goals first
    | exact .refl s
    | exact claimsSettled_post s l rfl
    | exact claimsSettled_modLane _ _ _ laneKept_withdrawCommit

theorem claimsSettled_refreshMark (s : State) (l : LaneId) : ClaimsSettled s (s.refreshMark l) := by
  unfold State.refreshMark
  repeat' split
  all_goals first
    | exact .refl s
    | exact claimsSettled_post s l rfl
    | exact claimsSettled_withdraw s l rfl

/-- Dropping from the front while a test holds is dropping some number of entries, all of which pass it. -/
theorem dropWhile_eq_drop {α : Type} (p : α → Bool) (l : List α) :
    ∃ n, l.dropWhile p = l.drop n ∧ ∀ e ∈ l.take n, p e = true := by
  induction l with
  | nil => exact ⟨0, rfl, by simp⟩
  | cons a l ih =>
    by_cases h : p a = true
    · obtain ⟨n, hn, ha⟩ := ih
      exact ⟨n + 1, by simp [h, hn], by simpa [h] using ha⟩
    · exact ⟨0, by simp [h], by simp⟩

theorem claimsSettled_postReloc (s : State) : ClaimsSettled s s.postReloc := by
  obtain ⟨n, hn, -⟩ := dropWhile_eq_drop s.relocStale s.relocList
  have h : ClaimsSettled s { s with relocList := s.relocList.dropWhile s.relocStale } :=
    ⟨s.laneA, s.laneB, n, by rw [hn], .refl _, .refl _⟩
  unfold State.postReloc
  dsimp only
  split
  · exact h
  · exact h.trans (claimsSettled_post _ _ rfl)

theorem claimsSettled_refreshReloc (s : State) : ClaimsSettled s s.refreshReloc := by
  unfold State.refreshReloc
  repeat' split
  all_goals first
    | exact .refl s
    | exact claimsSettled_withdrawBoth s rfl
    | exact claimsSettled_postReloc s

/-! ### The claims that follow from the state -/

theorem ClaimsSettled.queue {s t : State} (h : ClaimsSettled s t) : t.commitQueue = s.commitQueue := by
  obtain ⟨a, b, n, rfl, -, -⟩ := h; rfl

theorem ClaimsSettled.eligible {s t : State} (h : ClaimsSettled s t) (l : LaneId) (k : Nat) :
    t.eligible l k = s.eligible l k := by
  obtain ⟨a, b, n, rfl, ⟨c, p, rfl, -⟩, ⟨d, q, rfl, -⟩⟩ := h
  cases l <;> rfl

theorem ClaimsSettled.wantsMark {s t : State} (h : ClaimsSettled s t) (l : LaneId) :
    t.wantsMark l = s.wantsMark l := by
  obtain ⟨a, b, n, rfl, ⟨c, p, rfl, -⟩, ⟨d, q, rfl, -⟩⟩ := h
  cases l <;> rfl

theorem ClaimsSettled.relocStale {s t : State} (h : ClaimsSettled s t) : t.relocStale = s.relocStale := by
  obtain ⟨a, b, n, rfl, ⟨c, p, rfl, -⟩, ⟨d, q, rfl, -⟩⟩ := h
  funext ⟨m, ⟨l, i⟩⟩; cases l <;> rfl

theorem ClaimsSettled.relocAllowed {s t : State} (h : ClaimsSettled s t) : t.relocAllowed = s.relocAllowed := by
  obtain ⟨a, b, n, rfl, -, -⟩ := h; rfl

theorem ClaimsSettled.anyEligible {s t : State} (h : ClaimsSettled s t) (l : LaneId) :
    t.commitQueue.any (t.eligible l) = s.commitQueue.any (s.eligible l) := by
  rw [h.queue, funext (h.eligible l)]

/-- Posting or withdrawing another kind of claim leaves a claim standing or not standing. -/
theorem contains_post (s : State) (l m : LaneId) {c d : Claim} (h : d ≠ c) :
    ((s.post m c).lane l).claims.contains d = (s.lane l).claims.contains d := by
  cases l <;> cases m <;> simp [State.post, h]

theorem contains_withdraw (s : State) (l m : LaneId) {c d : Claim} (h : d ≠ c) :
    ((s.withdraw m c).lane l).claims.contains d = (s.lane l).claims.contains d := by
  cases l <;> cases m <;> simp [State.withdraw, h]

theorem contains_withdrawCommit (s : State) (l m : LaneId) {d : Claim} (h : d ≠ .commit) :
    ((s.withdrawCommit m).lane l).claims.contains d = (s.lane l).claims.contains d := by
  cases l <;> cases m <;> simp [State.withdrawCommit, h]

theorem contains_refreshMark (s : State) (l m : LaneId) {d : Claim} (h : d ≠ .mark) :
    ((s.refreshMark m).lane l).claims.contains d = (s.lane l).claims.contains d := by
  unfold State.refreshMark
  repeat' split
  all_goals first | rfl | exact contains_post s l m h | exact contains_withdraw s l m h

theorem contains_refreshReloc (s : State) (l : LaneId) {d : Claim} (h : d ≠ .relocationRead) :
    ((s.refreshReloc).lane l).claims.contains d = (s.lane l).claims.contains d := by
  unfold State.refreshReloc
  repeat' split
  · rfl
  · exact (contains_withdraw _ l .b h).trans (contains_withdraw _ l .a h)
  · unfold State.postReloc
    dsimp only
    split
    · cases l <;> rfl
    · exact (contains_post _ l _ h).trans (by cases l <;> rfl)
  · rfl

theorem contains_refreshCommit_other (s : State) {l m : LaneId} (h : l ≠ m) (d : Claim) :
    ((s.refreshCommit m).lane l).claims.contains d = (s.lane l).claims.contains d := by
  unfold State.refreshCommit
  cases l <;> cases m <;> first | exact absurd rfl h | (repeat' split) <;> rfl

theorem contains_refreshCommit_kind (s : State) (l m : LaneId) {d : Claim} (h : d ≠ .commit) :
    ((s.refreshCommit m).lane l).claims.contains d = (s.lane l).claims.contains d := by
  unfold State.refreshCommit
  repeat' split
  all_goals first | rfl | exact contains_post s l m h | exact contains_withdrawCommit s l m h

theorem contains_refreshMark_other (s : State) {l m : LaneId} (h : l ≠ m) (d : Claim) :
    ((s.refreshMark m).lane l).claims.contains d = (s.lane l).claims.contains d := by
  unfold State.refreshMark
  cases l <;> cases m <;> first | exact absurd rfl h | (repeat' split) <;> rfl

theorem commit_stands (s : State) (l : LaneId) :
    ((s.refreshCommit l).lane l).claims.contains .commit = s.commitQueue.any (s.eligible l) := by
  unfold State.refreshCommit
  split
  · rename_i h
    rw [h]
    split
    · assumption
    · cases l <;> simp [State.post]
  · rename_i h
    simp only [Bool.not_eq_true] at h
    rw [h]
    split
    · cases l <;> simp [State.withdrawCommit]
    · rename_i g; simpa using g

theorem mark_stands (s : State) (l : LaneId) :
    ((s.refreshMark l).lane l).claims.contains .mark = s.wantsMark l := by
  unfold State.refreshMark
  split
  · rename_i h
    rw [h]
    split
    · assumption
    · cases l <;> simp [State.post]
  · rename_i h
    simp only [Bool.not_eq_true] at h
    rw [h]
    split
    · cases l <;> simp [State.withdraw]
    · rename_i g; simpa using g

theorem claimsFollow_of_lines {s : State} (h : s.CommitClaimsFollow) : s.refreshLines.CommitClaimsFollow := by
  intro l; cases l <;> [exact h .a; exact h .b]

theorem marksFollow_of_lines {s : State} (h : s.MarkClaimsFollow) : s.refreshLines.MarkClaimsFollow := by
  intro l; cases l <;> [exact h .a; exact h .b]

/-- After the refresh a COMMIT claim stands exactly where a queued slot is eligible (05 R78). -/
theorem commitClaims_refresh (s : State) : s.refresh.CommitClaimsFollow := by
  refine claimsFollow_of_lines fun l => ?_
  have g := (claimsSettled_refreshMark _ .a).trans ((claimsSettled_refreshMark _ .b).trans
    (claimsSettled_refreshReloc (((((s.refreshCommit .a).refreshCommit .b).refreshMark .a).refreshMark .b))))
  rw [contains_refreshReloc _ _ (by decide), contains_refreshMark _ _ _ (by decide),
    contains_refreshMark _ _ _ (by decide), g.anyEligible, (claimsSettled_refreshCommit _ .b).anyEligible,
    (claimsSettled_refreshCommit s .a).anyEligible]
  cases l
  · rw [contains_refreshCommit_other _ (by decide), commit_stands]
  · rw [commit_stands, (claimsSettled_refreshCommit s .a).anyEligible]

/-- After the refresh a MARK claim stands exactly where its conditions hold (06 R108). -/
theorem markClaims_refresh (s : State) : s.refresh.MarkClaimsFollow := by
  refine marksFollow_of_lines fun l => ?_
  rw [contains_refreshReloc _ _ (by decide), (claimsSettled_refreshReloc _).wantsMark,
    (claimsSettled_refreshMark _ .b).wantsMark, (claimsSettled_refreshMark _ .a).wantsMark]
  cases l
  · rw [contains_refreshMark_other _ (by decide), mark_stands]
  · rw [mark_stands, (claimsSettled_refreshMark _ .a).wantsMark]

/-- After the refresh the two lines follow the state (10 R153, 11 R173). -/
theorem linesFollow_refresh (s : State) : s.refresh.LinesFollow := ⟨rfl, rfl⟩

/-! ### Pass-over counts -/

theorem passOver_refreshMark (s : State) (l m : LaneId) :
    ((s.refreshMark m).lane l).passOver = (s.lane l).passOver := by
  unfold State.refreshMark
  repeat' split
  all_goals first | rfl | (cases l <;> cases m <;> rfl)

theorem passOver_refreshReloc (s : State) (l : LaneId) : (s.refreshReloc.lane l).passOver = (s.lane l).passOver := by
  unfold State.refreshReloc
  repeat' split
  · rfl
  · cases l <;> rfl
  · unfold State.postReloc
    dsimp only
    split
    · cases l <;> rfl
    · rename_i e _ _
      obtain ⟨n, ⟨m, i⟩⟩ := e
      cases l <;> cases m <;> rfl
  · rfl

theorem passOver_refreshCommit (s : State) (l : LaneId) :
    ((s.refreshCommit l).lane l).passOver =
      if (s.lane l).claims.contains .commit && !((s.refreshCommit l).lane l).claims.contains .commit then 0
      else (s.lane l).passOver := by
  rw [commit_stands]
  unfold State.refreshCommit
  generalize s.commitQueue.any (s.eligible l) = q
  cases q <;> cases hc : (s.lane l).claims.contains .commit <;> cases l <;>
    simp_all [State.post, State.withdrawCommit]

theorem passOver_refreshCommit_other (s : State) {l m : LaneId} (h : l ≠ m) :
    ((s.refreshCommit m).lane l).passOver = (s.lane l).passOver := by
  unfold State.refreshCommit
  cases l <;> cases m <;> first | exact absurd rfl h | (repeat' split) <;> rfl

theorem lane_refreshLines (s : State) (l : LaneId) : s.refreshLines.lane l = s.lane l := by cases l <;> rfl

/-- The refresh withdraws a COMMIT claim with its pass-over count, and leaves every other count (06 R101). -/
theorem passOver_refresh (s : State) (l : LaneId) :
    (s.refresh.lane l).passOver =
      if (s.lane l).claims.contains .commit && !(s.refresh.lane l).claims.contains .commit then 0
      else (s.lane l).passOver := by
  unfold State.refresh
  rw [lane_refreshLines, passOver_refreshReloc, passOver_refreshMark, passOver_refreshMark, contains_refreshReloc _ _ (by decide),
    contains_refreshMark _ _ _ (by decide), contains_refreshMark _ _ _ (by decide)]
  cases l
  · rw [passOver_refreshCommit_other _ (by decide), contains_refreshCommit_other _ (by decide), passOver_refreshCommit]
  · rw [passOver_refreshCommit, contains_refreshCommit_other _ (by decide), passOver_refreshCommit_other _ (by decide)]

/-! ### The relocation list and its claim -/

/-- The state in which the refresh comes to the relocation list. -/
def State.beforeReloc (s : State) : State :=
  (((s.refreshCommit .a).refreshCommit .b).refreshMark .a).refreshMark .b

theorem claimsSettled_beforeReloc (s : State) : ClaimsSettled s s.beforeReloc :=
  (claimsSettled_refreshCommit s .a).trans ((claimsSettled_refreshCommit _ .b).trans
    ((claimsSettled_refreshMark _ .a).trans (claimsSettled_refreshMark _ .b)))

/-- What the refresh of the relocation claim does: nothing; or the waiting claim is withdrawn; or, where it is allowed with
none waiting or granted, stale heads go and the next head's claim is posted on its lane (07 R123). -/
theorem refreshReloc_cases (s : State) :
    (s.refreshReloc = s ∧
      ((s.laneA.relocWaits || s.laneB.relocWaits) = true → s.relocAllowed = true ∧ s.relocList ≠ []) ∧
      ((s.laneA.relocWaits || s.laneB.relocWaits) = false →
        s.relocAllowed = false ∨ (s.laneA.relocGranted || s.laneB.relocGranted) = true)) ∨
    (s.refreshReloc = s.withdrawBoth .relocationRead ∧ (s.relocAllowed = false ∨ s.relocList = [])) ∨
    (s.relocAllowed = true ∧ (s.laneA.relocWaits || s.laneB.relocWaits) = false ∧ ∃ n,
      (∀ e ∈ s.relocList.take n, s.relocStale e = true) ∧
      ((s.relocList.drop n = [] ∧ s.refreshReloc = { s with relocList := [] }) ∨
        ∃ e rest, s.relocList.drop n = e :: rest ∧ s.relocStale e = false ∧
          s.refreshReloc = ({ s with relocList := e :: rest }).post e.2.lane .relocationRead)) := by
  unfold State.refreshReloc
  split
  · rename_i hw
    split
    · rename_i ha
      simp only [Bool.and_eq_true, Bool.not_eq_true', List.isEmpty_eq_false_iff] at ha
      exact .inl ⟨rfl, fun _ => ha, fun h => by simp [hw] at h⟩
    · rename_i ha
      refine .inr (.inl ⟨rfl, ?_⟩)
      cases h : s.relocAllowed
      · exact .inl rfl
      · exact .inr (by simpa [h] using ha)
  · rename_i hw
    split
    · rename_i ha
      simp only [Bool.and_eq_true] at ha
      obtain ⟨n, hn, hs⟩ := dropWhile_eq_drop s.relocStale s.relocList
      refine .inr (.inr ⟨ha.1.1, by simpa using hw, n, hs, ?_⟩)
      unfold State.postReloc
      dsimp only
      cases hd : s.relocList.dropWhile s.relocStale with
      | nil => exact .inl ⟨hn ▸ hd, rfl⟩
      | cons e rest =>
        refine .inr ⟨e, rest, hn ▸ hd, ?_, rfl⟩
        have := List.head_dropWhile_not s.relocStale (l := s.relocList) (by simp [hd])
        simpa [hd] using this
    · rename_i ha
      refine .inl ⟨rfl, fun h => absurd h hw, fun _ => ?_⟩
      cases h : s.relocAllowed
      · exact .inl rfl
      · exact .inr (by revert ha; simp [h]; cases s.laneA.relocGranted <;> simp)

/-- The list and the claim after the refresh of the relocation claim. -/
theorem relocList_refreshReloc (s : State) : ∃ n, s.refreshReloc.relocList = s.relocList.drop n ∧
    (∀ e ∈ s.relocList.take n, s.relocStale e = true) ∧ (n = 0 ∨ s.relocAllowed = true) ∧
    ((∀ l, .relocationRead ∉ (s.lane l).claims) → ∀ l, .relocationRead ∈ (s.refreshReloc.lane l).claims →
      ∃ e, s.refreshReloc.relocList.head? = some e ∧ e.2.lane = l ∧ s.relocStale e = false) := by
  rcases refreshReloc_cases s with ⟨h, -, -⟩ | ⟨h, -⟩ | ⟨ha, -, n, hs, ⟨hn, h⟩ | ⟨e, rest, hn, he, h⟩⟩
  · exact ⟨0, by simp [h], by simp, .inl rfl, fun hw l hl => absurd (h ▸ hl) (hw l)⟩
  · refine ⟨0, by simp [h, State.withdrawBoth, State.withdraw], by simp, .inl rfl, fun _ l hl => ?_⟩
    rw [h] at hl
    cases l <;> simp [State.withdrawBoth, State.withdraw] at hl
  · refine ⟨n, by simp [h, hn], hs, .inr ha, fun hw l hl => absurd ?_ (hw l)⟩
    rw [h] at hl
    cases l <;> exact hl
  · refine ⟨n, by simp [h, hn, State.post], hs, .inr ha, fun hw l hl => ⟨e, by simp [h, State.post], ?_, he⟩⟩
    rw [h] at hl
    by_contra hne
    refine hw l ?_
    obtain ⟨k, ⟨m, i⟩⟩ := e
    cases l <;> cases m <;> first | exact absurd rfl hne | simpa [State.post] using hl

theorem relocList_beforeReloc (s : State) : s.beforeReloc.relocList = s.relocList := by
  have hc : ∀ (t : State) (l : LaneId), (t.refreshCommit l).relocList = t.relocList := fun t l => by
    unfold State.refreshCommit; repeat' split
    all_goals rfl
  have hm : ∀ (t : State) (l : LaneId), (t.refreshMark l).relocList = t.relocList := fun t l => by
    unfold State.refreshMark; repeat' split
    all_goals rfl
  simp [State.beforeReloc, hc, hm]

theorem relocClaim_beforeReloc (s : State) (l : LaneId) :
    .relocationRead ∈ (s.beforeReloc.lane l).claims ↔ .relocationRead ∈ (s.lane l).claims := by
  have h : (s.beforeReloc.lane l).claims.contains .relocationRead = (s.lane l).claims.contains .relocationRead := by
    unfold State.beforeReloc
    rw [contains_refreshMark _ _ _ (by decide), contains_refreshMark _ _ _ (by decide),
      contains_refreshCommit_kind _ _ _ (by decide), contains_refreshCommit_kind _ _ _ (by decide)]
  simpa using h

/-! ### The whole refresh -/

theorem refresh_eq (s : State) : s.refresh = s.beforeReloc.refreshReloc.refreshLines := rfl

/-- What the refresh at the end of a step can change. -/
theorem settled_refresh (s : State) : Settled s s.refresh := by
  have hb := claimsSettled_beforeReloc s
  obtain ⟨a, b, n, h, ha, hb'⟩ := hb.trans (claimsSettled_refreshReloc _)
  obtain ⟨m, hm, hs, hw, hh⟩ := relocList_refreshReloc s.beforeReloc
  rw [relocList_beforeReloc] at hm hs
  rw [hb.relocStale] at hs hh
  rw [hb.relocAllowed] at hw
  have hd : s.relocList.drop n = s.relocList.drop m := by rw [← hm, h]
  have hA : (s.refresh).laneA = a := by rw [refresh_eq, h]; rfl
  have hB : (s.refresh).laneB = b := by rw [refresh_eq, h]; rfl
  refine ⟨a, b, m, ?_, ha.settled ?_, hb'.settled ?_, hs, hw, fun hno l hl => ?_⟩
  · rw [refresh_eq, h, ← hd]; rfl
  · have := passOver_refresh s .a; simpa only [State.lane, hA] using this
  · have := passOver_refresh s .b; simpa only [State.lane, hB] using this
  · rw [refresh_eq, lane_refreshLines] at hl
    exact hh (fun k hk => hno k ((relocClaim_beforeReloc s k).1 hk)) l hl

theorem relocAllowed_iff (s : State) :
    s.relocAllowed = true ↔ s.alive = true ∧ s.mode = .run ∧ 5 ≤ s.freeCount := by
  simp only [State.relocAllowed, Config.internalSlotFloor, Bool.and_eq_true, beq_iff_eq, and_assoc]
  exact and_congr_right' (and_congr_right' (decide_eq_true_iff))

theorem relocWaits_iff (s : State) :
    (s.laneA.relocWaits || s.laneB.relocWaits) = true ↔ ∃ l, .relocationRead ∈ (s.lane l).claims := by
  simp only [Lane.relocWaits, Bool.or_eq_true, List.contains_iff_mem]
  exact ⟨fun h => h.elim (fun h => ⟨.a, h⟩) (fun h => ⟨.b, h⟩), fun ⟨l, h⟩ =>
    by cases l <;> [exact .inl h; exact .inr h]⟩

/-- After the refresh of the relocation claim it follows its conditions. -/
theorem relocationClaims_refreshReloc (s : State) : s.refreshReloc.RelocationClaimsFollow := by
  rcases refreshReloc_cases s with ⟨h, hw, hn⟩ | ⟨h, hn⟩ | ⟨ha, hf, n, -, ⟨-, h⟩ | ⟨e, rest, -, -, h⟩⟩ <;> rw [h]
  · refine ⟨fun hc => ?_, fun h1 h2 h3 h4 => ?_⟩
    · obtain ⟨h1, h2⟩ := hw ((relocWaits_iff s).2 hc)
      exact ⟨h2, (relocAllowed_iff s).1 h1⟩
    · have hc : (s.laneA.relocWaits || s.laneB.relocWaits) = false :=
        Bool.eq_false_iff.2 fun hc => ((relocWaits_iff s).1 hc).elim fun l hl => (h4 l).1 hl
      rcases hn hc with g | g
      · rw [(relocAllowed_iff s).2 ⟨h1, h2, h3⟩] at g; cases g
      · have ga : s.laneA.relocGranted = false := (h4 .a).2
        have gb : s.laneB.relocGranted = false := (h4 .b).2
        simp [ga, gb] at g
  · refine ⟨fun ⟨l, hl⟩ => ?_, fun h1 h2 h3 _ => ?_⟩
    · cases l <;> simp [State.withdrawBoth, State.withdraw] at hl
    · rcases hn with g | g
      · rw [(relocAllowed_iff s).2 ⟨h1, h2, h3⟩] at g; cases g
      · exact g
  · refine ⟨fun ⟨l, hl⟩ => absurd ((relocWaits_iff s).2 ⟨l, ?_⟩) (by simp [hf]), fun _ _ _ _ => rfl⟩
    cases l <;> exact hl
  · refine ⟨fun _ => ⟨by simp [State.post], (relocAllowed_iff s).1 ha⟩, fun _ _ _ h4 => ?_⟩
    obtain ⟨k, ⟨m, i⟩⟩ := e
    refine absurd ?_ (h4 m).1
    cases m <;> simp [State.post]

/-- After the refresh the RELOCATION_READ claim follows its conditions (07 R123). -/
theorem relocationClaims_refresh (s : State) : s.refresh.RelocationClaimsFollow :=
  relocationClaims_refreshReloc s.beforeReloc

/-- With no request on the link the end of a step is the refresh alone. -/
theorem settle_of_quiet {s : State} (h : s.link = []) : s.settle = s.refresh := by
  simp [State.settle, State.serveLink, h]

theorem settlesTo_next {s : State} (h : s.link = []) : SettlesTo (.next s.settle) s :=
  ⟨_, rfl, settle_of_quiet h ▸ settled_refresh s⟩

end Sys2Proof.Machine
end

