-- ==== Sys2Proof/Tests/Slice0.lean ====
section
/-! SUPPORT. The model's own tests: an ill-formed term for each check of WellFormed, frames and pages written out from
the tables of chapter 12, single steps taken from the worked examples and rules of the spec, and for every obligation
with hypotheses a state and operands that meet them. -/

namespace Sys2Proof.Tests

open Sys2Proof Sys2Proof.Machine

-- Each `decide` below waits for what stands before it; one after the other they need one thread.
set_option Elab.async false

/-! ### Small states -/

/-- Six logical pages on two lanes of six pages. -/
def smallCfg : WorkCfg := { defaultCfg (geometryOf resetPins.straps) with capacity := 6 }

def smallA : Lane :=
  { freshLane (geometryOf resetPins.straps) .a true with
    pages := freshSystemPage :: freshSystemPage :: List.replicate 4 freshPage
    freeList := [2, 3, 4, 5] }

def smallB : Lane :=
  { freshLane (geometryOf resetPins.straps) .b true with
    pages := List.replicate 6 freshPage
    freeList := [0, 1, 2, 3, 4, 5] }

/-- A part in RUN with every slot FREE and every page UNMAPPED, a select period begun. -/
def small : State :=
  { State.reset with
    mode := .run
    mount := none
    timer := some 100
    serial := .receiving
    cfg := smallCfg
    remap := List.replicate 6 .unmapped
    laneA := smallA
    laneB := smallB }

/-- Logical page 3 is MAPPED at B:0001 with sequence 5. -/
def mapped : State :=
  { small with
    seq := 6
    remap := small.remap.set 3 (.mapped ⟨.b, 1⟩ 5)
    laneB :=
      { smallB with
        pages := smallB.pages.set 1 { state := .mapped 3, wear := 1, soft := 0 }
        freeList := [0, 2, 3, 4, 5] } }

/-- A whole SEALED slot of a page. -/
def whole (page stamp : Nat) : Slot :=
  { phase := .sealed, stamp := stamp, page := page, origin := .host, cells := List.replicate 64 (some 9#8),
    poison := 0, attempts := 0, flushMark := false, owed := false }

/-- An OPEN slot of a page with its first eight bytes written. -/
def partly (page stamp : Nat) : Slot :=
  { whole page stamp with
    phase := .opened 2000
    cells := List.replicate 8 (some 1#8) ++ List.replicate 56 none }

def withSlot (s : State) (k : Nat) (sl : Slot) : State := { s with slots := s.slots.set k (some sl) }

def withQueued (s : State) (k : Nat) (sl : Slot) : State :=
  { (withSlot s k sl) with commitQueue := s.commitQueue ++ [k] }

def withOpA (s : State) (op : Op) : State := { s with laneA := { s.laneA with op := some op } }

def withOpB (s : State) (op : Op) : State := { s with laneB := { s.laneB with op := some op } }

def withClaimA (s : State) (c : Claim) : State := { s with laneA := { s.laneA with claims := [c] } }

def withClaimB (s : State) (c : Claim) : State := { s with laneB := { s.laneB with claims := [c] } }

/-- Every way an OPEN slot is sealed: full (slot 0), over an older slot in the queue (2), over an UNMAPPED page (3), over a
mapped copy (4) and over an ABSENT page (5). -/
def openPool : State :=
  let s : State := { mapped with remap := mapped.remap.set 5 .absent }
  withSlot (withSlot (withSlot (withSlot (withQueued (withSlot s 0 { whole 0 5 with phase := .opened 2000 }) 1 (whole 1 0))
    2 (partly 1 4)) 3 (partly 2 3)) 4 (partly 3 2)) 5 (partly 5 1)

/-- A host read of page 3 waits on lane B. -/
def readWaits : State :=
  { (withClaimB mapped (.hostRead false)) with
    port := .reading [{ page := 3, off := 63, len := 1, progress := .waiting .b }] }

/-- A read of page 3 under way on lane B. -/
def reading (r : Reader) : State := withOpB mapped (.read r 3 1 5)

/-- The state a command answers; the state before it where the command stops. -/
def after (c : Instr) (s : State) : State :=
  match exec c s with
  | .next t => t
  | _ => s

/-- The copy of page 3 at B:0001, all bytes 7. -/
def copy3 : List Byte :=
  pageImage (List.replicate 64 7#8) { kind := 1, logical := 3, seq := 5, wear := 1, soft := 0, poison := 0 }

def erasedPage : List Byte := List.replicate 88 0xFF#8

/-! ### WellFormed -/

theorem test_wf_write_empty : ¬ (Instr.hostWrite 0 []).WellFormed := by decide
theorem test_wf_write_long : ¬ (Instr.hostWrite 0 (List.replicate 65 0#8)).WellFormed := by decide +kernel
theorem test_wf_read_long : ¬ (Instr.hostRead 0 65).WellFormed := by decide
theorem test_wf_slot : ¬ (Instr.holdTimerExpiry 16).WellFormed := by decide
theorem test_wf_page : ¬ (Instr.hostReadDone .a [0#8]).WellFormed := by decide
theorem test_wf_params : ¬ (Instr.getStatus (List.replicate 256 0#8)).WellFormed := by decide +kernel
theorem test_wf_value : ¬ (Instr.setHoldTime (List.replicate 255 0#8)).WellFormed := by decide +kernel
theorem test_wf_frame : ¬ (Instr.badFrame [1#8, 2#8, 3#8]).WellFormed := by decide
theorem test_wf_unknown : ¬ (Instr.unknownCommand 0 (List.replicate 256 0#8)).WellFormed := by decide +kernel
theorem test_wf_refused : exec (.hostWrite 0 []) small = .refused .illFormed := rfl
theorem test_wf_faults : exec (.hostReadDone .a [0#8]) small = .fault .transferLength := rfl

/-! ### Codes and frames, written out from chapter 12 -/

/-- 12, Worked Example: the first fourteen bytes of the tag of A:0411. -/
theorem test_tag_example :
    Tag.body { kind := 0x01, logical := 200, seq := 70002, wear := 301, soft := 0, poison := 0 } =
      [0x01, 0x00, 0xC8, 0x00, 0x00, 0x00, 0x01, 0x11, 0x72, 0x00, 0x01, 0x2D, 0x00, 0x00] := by decide

/-- 12 R175: data bit 0 sits at position 3 and data bit 63 at position 71. -/
theorem test_data_positions : dataPositions.length = 64 ∧ dataPositions.head? = some 3 ∧
    dataPositions.getLast? = some 71 ∧ dataPositions.take 5 = [3, 5, 6, 7, 9] := by decide +kernel

/-- 12 R175: data bit 0 alone gives check bits 0 and 1, and bit 7 keeps the parity even. -/
theorem test_check_byte : checkByte [1, 0, 0, 0, 0, 0, 0, 0] = 0x83#8 := by decide +kernel

/-- The CRC-16 with register all ones and polynomial 0x1021 of the nine characters 1 to 9 is 0x29B1. -/
theorem test_crc16 : crc16 [0x31, 0x32, 0x33, 0x34, 0x35, 0x36, 0x37, 0x38, 0x39] = 0x29B1#16 := by decide +kernel

/-- The CRC-8 with register 0 and polynomial 0x07 of the nine characters 1 to 9 is 0xF4. -/
theorem test_crc8 : crc8 [0x31, 0x32, 0x33, 0x34, 0x35, 0x36, 0x37, 0x38, 0x39] = 0xF4#8 := by decide +kernel

/-- 12 Table 12.4: the frame of QUIESCE decodes to it. -/
theorem test_frame_quiesce : decodeFrame [0x23, 0x00, crc8 [0x23, 0x00]] = some (.quiesce []) := by decide +kernel

/-- 11 R160: a frame whose length byte is above 16 is read to its end and is bad. -/
theorem test_frame_long : decodeFrame (makeFrame 0x01 (List.replicate 17 0#8)) =
    some (.badFrame (makeFrame 0x01 (List.replicate 17 0#8))) := by decide +kernel

/-- 11 R160: the frame of QUIESCE shifted in bit by bit, with a filler byte after it, and the frame cut one bit short. -/
theorem test_serial_line :
    periodCommands (clockedLevels (lineBits (makeFrame 0x23 [] ++ [0]))) false = [.selectStart, .quiesce [], .selectEnd] ∧
    periodCommands (clockedLevels ((lineBits (makeFrame 0x23 [])).take 23)) false = [.selectStart, .selectEnd] := by
  decide +kernel

/-- 11 R160: a frame outside a select period is not taken, and SDO carries 0x00 but for the answer. -/
theorem test_frame_unselected : exec (.getStatus []) State.reset = .next State.reset ∧
    (List.range 6).map (({ small with serial := .answering [1, 0, 7] false } : State).sdo 2) = [0, 0, 1, 0, 7, 0] :=
  ⟨rfl, by decide +kernel⟩

/-- 11 R160: SDO changes at the falling edges of SCLK, so that each rising edge finds the next bit. -/
theorem test_sdo_levels :
    sampledBits false (List.zipWith LineLevels.mk [false, true, false, true, false, true]
      (sdoLevels false [true, false, true] [false, true, false, true, false, true])) = [true, false, true] := by decide

/-- The table gives no bits: no word spells a command (log 28). -/
theorem test_no_word : decodeTableWord 8 1 = none ∧ State.reset.withFetchWord 8 1 = State.reset := ⟨rfl, rfl⟩

/-! ### Single steps -/

/-- 04 Tables 4.2 and 4.3: page 16 is PIN and SYNC, page 40 OPEN and SYNC, page 50 OPEN and POSTED. -/
theorem test_windows :
    let s : State := { State.reset with cfg := { State.reset.cfg with windows :=
      [⟨0, 31, .pin, .posted⟩, ⟨16, 47, .opened, .sync⟩, ⟨40, 39, .opened, .posted⟩,
       ⟨96, 2047, .opened, .posted⟩] } }
    (s.protection 16, s.commitMode 16) = (.pin, .sync) ∧ (s.protection 40, s.commitMode 40) = (.opened, .sync) ∧
    (s.protection 50, s.commitMode 50) = (.opened, .posted) ∧ s.writeProtected 16 = false := by decide +kernel

/-- 02, Worked Example: the first write opens slot 0 with four valid bytes and is answered DONE. -/
theorem test_write_opens : ((after (.hostWrite 192 [1, 2, 3, 4]) small).slot 0).map (fun sl => (sl.page, sl.phase)) =
    some (3, .opened 2000) ∧ (after (.hostWrite 192 [1, 2, 3, 4]) small).answers = [.done] := by decide +kernel

/-- 02, Worked Example: a write over two pages merges into one slot and opens the next. -/
theorem test_write_spans : (after (.hostWrite 252 (List.replicate 12 5#8)) (withSlot small 0 (partly 3 0))).freeCount
    = 14 := by decide +kernel

/-- 03 R59: an UNMAPPED page reads as erased bytes. -/
theorem test_read_erased : (after (.hostRead 100 2) small).answers = [.data [0xFF, 0xFF]] := by decide +kernel

/-- 03 Table 3.4: a write beyond the capacity is answered FAULT RANGE. -/
theorem test_write_range : (after (.hostWrite 383 [1, 2]) small).answers = [.fault .range] := by decide +kernel

/-- 03 R58: during a mount the answer is RETRY. -/
theorem test_mount_retry : (after (.hostRead 0 1) State.reset).answers = [.retry] := by decide +kernel

/-- 02 R34, R38: the passing of a deadline fills the slot of an UNMAPPED page and seals it. -/
theorem test_hold_expiry : (after (.holdTimerExpiry 0) (withSlot small 0 (partly 3 0))).commitQueue = [0] := by
  decide +kernel

/-- 02 R38: over a mapped page it posts a FILL_READ on the lane of the copy. -/
theorem test_hold_claim : .fillRead 0 ∈ (after (.holdTimerExpiry 0) (withSlot mapped 0 (partly 3 0))).laneB.claims := by
  decide +kernel

/-- 05 R80: the commit of a whole slot takes the head of the free list, and wear counts the program. -/
theorem test_commit_grant :
    ((after (.commitGrant .a true) (withClaimA (withQueued mapped 0 (whole 3 0)) .commit)).page ⟨.a, 2⟩) =
      { state := .target 3, wear := 1, soft := 0 } := by decide +kernel

/-- 08 R130: an expiry posts a PATROL_READ for page 3 and moves the cursor to 4. -/
theorem test_patrol : (after .patrolTimerExpiry mapped).cursor = 4 ∧
    .patrolRead ∈ (after .patrolTimerExpiry mapped).laneB.claims := by decide +kernel

/-- 06 R103: a lost lane gives LANE_OFFLINE with its cause and sets its flag. -/
theorem test_ready_timeout : (after (.readyTimeout .b) State.reset).faults.laneB = true ∧
    (after (.readyTimeout .b) State.reset).notices =
      [{ kind := .laneOffline, lane := some .b, index := none, logical := none, detail := 3 }] := by decide +kernel

/-- 10 R155: PWARN in RUN with an empty pool drains at once. -/
theorem test_pwarn : (after .pwarnAssertion small).mode = .drained ∧ (after .pwarnAssertion small).drainedLine = true := by
  decide +kernel

/-- 10 R153, R154: while RESET is asserted the mode is MOUNTING, and the drain cause set follows PWARN. -/
theorem test_pwarn_in_reset :
    let s := after .pwarnAssertion (after (.resetAssertion resetPins.straps) small)
    s.causes = { maintenance := false, power := true } ∧ s.mode = .mounting ∧
      (after .pwarnDeassertion s).causes = { maintenance := false, power := false } ∧
      (after (.resetAssertion resetPins.straps) (after .pwarnAssertion small)).causes.power = true := by decide +kernel

/-- 06 R102, R111: an OFFLINE lane stays OFFLINE at the assertion of RESET and is ONLINE as the mount begins. -/
theorem test_lane_in_reset :
    let s := after (.resetAssertion resetPins.straps) { small with laneB := { smallB with online := false } }
    (s.laneA.online, s.laneB.online) = (true, false) ∧ (after .resetDeassertion s).laneB.online = true := by decide +kernel

/-- 01 R9: a page takes a soft count for a relocation, and a FREE page takes none. -/
theorem test_soft_count : ((mapped.relocRequest 3 ⟨.b, 1⟩).page ⟨.b, 1⟩).soft = (mapped.page ⟨.b, 1⟩).soft + 1 ∧
    (small.relocRequest 3 ⟨.b, 1⟩).page ⟨.b, 1⟩ = small.page ⟨.b, 1⟩ ∧
    (small.relocRequest 3 ⟨.b, 1⟩).relocList = [(3, ⟨.b, 1⟩)] := by decide +kernel

/-- 11 R163: QUIESCE over an empty pool is complete at once, with COMMAND_DONE of code 0x23 and result OK. -/
theorem test_quiesce : (after (.quiesce []) small).notices =
    [{ kind := .commandDone, lane := none, index := none, logical := none, detail := 0x2300 }] := by decide +kernel

/-- 02 R36, R38: FLUSH seals the OPEN slots, the oldest first, marks every slot, and waits for the one mapped copy. -/
theorem test_flush : (after (.flush []) openPool).commitQueue = [1, 5, 3, 2, 0] ∧
    ((after (.flush []) openPool).slots.take 6).map (fun o => o.map (fun sl => (sl.phase, sl.poison, sl.flushMark))) =
      [some (.sealed, 0, true), some (.sealed, 0, true), some (.sealed, 0, true), some (.sealed, 0, true),
       some (.filling, 0, true), some (.sealed, 0xFE#8, true)] ∧
    (after (.flush []) openPool).longCmd = some (.flush false) := by decide +kernel

/-- 09 R138, 01 R20, 03 R63: REMOUNT clears the page table and answers a read in progress RETRY. -/
theorem test_remount :
    let s : State := { readWaits with mode := .drained, causes := ⟨true, false⟩ }
    (after (.remount []) s).mode = .mounting ∧ (after (.remount []) s).page ⟨.b, 1⟩ = freshPage ∧
      (after (.remount []) s).answers = [.retry] := by decide +kernel

/-- 07 R123: as a claim is posted a stale head (page 4 is UNMAPPED) is discarded, and the claim stands on the next one's
lane; in DRAINING neither happens. -/
theorem test_relocation_claim :
    let s : State := { mapped with relocList := [(4, ⟨.a, 2⟩), (3, ⟨.b, 1⟩)] }
    ((after .patrolTimerExpiry { s with patrolRead := some (3, ⟨.b, 1⟩) }).relocList,
        (after .patrolTimerExpiry { s with patrolRead := some (3, ⟨.b, 1⟩) }).laneB.claims) =
      ([(3, ⟨.b, 1⟩)], [.relocationRead]) ∧
    (after .patrolTimerExpiry
        { s with patrolRead := some (3, ⟨.b, 1⟩), mode := .draining, causes := ⟨true, false⟩ }).relocList =
      [(4, ⟨.a, 2⟩), (3, ⟨.b, 1⟩)] := by decide +kernel

/-- 07 R125: where the pool refuses the slot the entry stays. -/
theorem test_relocation_refused :
    (after (.relocationReadDone .b copy3)
        { (reading .relocation) with
          relocList := [(3, ⟨.b, 1⟩)], mode := .draining, causes := ⟨true, false⟩ }).relocList = [(3, ⟨.b, 1⟩)] := by
  decide +kernel

/-- 09 R141: an erased system page holds no record. -/
theorem test_record_blank : (foundRecord (geometryOf resetPins.straps) erasedPage).isSome = false := by decide +kernel

/-- 07 R117, R118: the copy read as it was programmed is GOOD and CLEAN; one bit inverted is CORRECTED. -/
theorem test_decode_good : (decodeRead copy3 3 5).tag = .good ∧ (decodeRead copy3 3 5).outcome 0 = .clean := by
  decide +kernel
theorem test_decode_corrected : (decodeRead (copy3.set 1 6#8) 3 5).outcome 0 = .corrected := by decide +kernel

/-- 07 R126, Table 7.2: one bit inverted in a codeword that the tag poisons stays as read. -/
theorem test_decode_poisoned :
    let page := (pageImage (List.replicate 64 7#8)
      { kind := 1, logical := 3, seq := 5, wear := 1, soft := 0, poison := 1 }).set 1 6#8
    (decodeRead page 3 5).outcome 0 = .uncorrectable ∧ (decodeRead page 3 5).data.getD 1 0 = 6#8 ∧
    (decodeRead (copy3.set 1 6#8) 3 5).data.getD 1 0 = 7#8 := by decide +kernel

/-- 06 R106: a lost lane ends its commit, answers its fill and its record program, and only then the queue is dropped. -/
theorem test_loss_order :
    let s : State := { (withSlot (withSlot small 0 { whole 3 0 with phase := .programming ⟨.a, 2⟩ 0 }) 1
        { partly 4 1 with phase := .filling }) with
      space := .exhausted
      longCmd := some .saveConfig
      laneA := { smallA with claims := [.fillRead 1, .recordProgram], op := some (.commit 0 .programming 2 0 copy3) }
      laneB := { smallB with freeList := [] } }
    (after (.programTimeout .a) s).notices.map (·.kind) = [.laneOffline, .commandDone, .commitLost, .commitLost] := by
  decide +kernel

/-- A mount in a phase. -/
def mounting (f : Mount → Mount) : State :=
  { small with mode := .mounting, mount := some (f (freshMount (geometryOf resetPins.straps))) }

/-- Lane B at its last page, lane A still reading; B:0003 is SUSPECT with a failed CRC. -/
def scanEnding : State :=
  mounting (fun m =>
    { m with
      phase := .scan
      scanA := { m.scanA with reading := some 2 }
      scanB := { m.scanB with reading := some 1023, wearHigh := 9 }
      classed := [{ page := ⟨.b, 3⟩, cls := .suspect true }] })

/-- 09 R145: the SUSPECT page takes its lane's highest wear as that lane ends its scan, by its last page or its loss. -/
theorem test_suspect_wear : ((after (.scanReadDone .b erasedPage) scanEnding).page ⟨.b, 3⟩).wear = 9 ∧
    ((after (.readTimeout .b) scanEnding).page ⟨.b, 3⟩).wear = 9 ∧ (scanEnding.page ⟨.b, 3⟩).wear = 0 := by decide +kernel

/-! ### Witnesses: the hypotheses of the obligations can be met -/

/-- RESET is asserted, with or without a request on the link. -/
def held : State := { small with pins := { small.pins with resetAsserted := true } }

theorem witness_StepRunsFrontCommand :
    ({ small with pending := [.powerLoss, .selectEnd] } : State).pending = .powerLoss :: [.selectEnd] := rfl

theorem witness_CommandsLeaveTheQueue : exec .selectStart small = .next small := rfl

theorem witness_SupplyClearsEveryBlock : small.powered = true := rfl

theorem witness_ResetClearsEveryBlock : small.alive = true ∧ held.powered = true ∧ held.pins.resetAsserted = true ∧
    held.link = [] ∧ ({ held with link := [.read 0 1] } : State).powered = true ∧
    ({ held with link := [.read 0 1] } : State).pins.resetAsserted = true := by decide

theorem witness_BoundsKept : step small = .next small ∧ small.NoticesBounded ∧ small.SixteenSlots ∧
    small.RelocBounded ∧ small.PassOverBounded :=
  ⟨rfl, ⟨Nat.zero_le _, Nat.zero_le _⟩, rfl, Nat.zero_le _, ⟨Nat.zero_le _, Nat.zero_le _⟩⟩

theorem witness_ModeLinesGeometryKept : step small = .next small ∧ small.ModeFollows ∧ small.LinesFollow ∧
    small.GeometryFromStraps := ⟨rfl, fun _ => ⟨fun _ => rfl, fun _ => rfl⟩, ⟨rfl, rfl⟩, rfl⟩

theorem witness_ClaimsFollowState : step small = .next small ∧ small.CommitClaimsFollow ∧ small.MarkClaimsFollow ∧
    small.RelocationClaimsFollow :=
  ⟨rfl, fun l => by cases l <;> rfl, fun l => by cases l <;> rfl,
    ⟨(by rintro ⟨l, h⟩; cases l <;> cases h), fun _ _ _ _ => rfl⟩⟩

theorem witness_EncodedFramesDecode : (Instr.quiesce []).carried = true ∧
    encodeFrame (.quiesce []) = some (makeFrame 0x23 []) ∧ 23 < 8 * (makeFrame 0x23 []).length := by decide +kernel

theorem witness_DecodedFramesEncode : decodeFrame (makeFrame 0x23 []) = some (.quiesce []) := by decide +kernel

theorem witness_CodewordErrorsJudged : ([1, 2, 3, 4, 5, 6, 7, 8] : List Byte).length = 8 := rfl

theorem witness_ProgrammedCopyReadsBack : (List.replicate 64 7#8).length = 64 ∧ isDataKind 0x01 = true ∧ 3 < 65536 ∧
    5 < 2 ^ 48 ∧ 1 < 2 ^ 24 ∧ 0 < 256 ∧ erasedPage.length = 88 := by decide +kernel

theorem witness_RecordReadsBack :
    let g := geometryOf resetPins.straps
    let c := defaultCfg g
    capacityOk g c.capacity = true ∧ wearLimitOk c.wearLimit = true ∧ softLimitOk c.softLimit = true ∧
    migThresholdOk c.migThreshold = true ∧ holdTimeOk c.holdTime = true ∧
    patrolIntervalOk c.patrolInterval = true ∧ reserveFloorOk c.reserveFloor = true ∧
    progLimitOk c.progLimit = true ∧ c.windows.length = 4 ∧ (∀ w ∈ c.windows, w.first < 65536 ∧ w.last < 65536) := by
  decide +kernel

theorem witness_EffectiveProtection :
    ({ small with cfg := { smallCfg with windows := smallCfg.windows ++ smallCfg.windows } } : State).cfg.capacity =
      small.cfg.capacity ∧
    ∀ w, w ∈ smallCfg.windows ++ smallCfg.windows ↔ w ∈ smallCfg.windows := ⟨rfl, fun w => by simp⟩

theorem witness_MergeRule : (partly 3 0).cells.length = 64 ∧
    ({ page := 3, off := 56, data := List.replicate 8 2#8 } : Part).off + 8 ≤ 64 := by decide +kernel

theorem witness_FillRule : (partly 3 0).cells.length = 64 ∧ (List.replicate 64 7#8).length = 64 := by decide +kernel

theorem witness_InternalSlotCreated : small.exhaustion = false ∧
    (small.createSlot 3 .relocate (List.replicate 64 7#8) 0).isSome = true ∧
    ({ small with space := .exhausted } : State).exhaustion = true ∧
    (({ small with space := .exhausted } : State).createSlot 3 .relocate (List.replicate 64 7#8) 0).isSome = true := by
  decide +kernel

/-- The copy at B:0001 is at the soft limit in the first case and below both limits in the second. -/
theorem witness_ReleaseRule : 1 ∉ [0, 2, 3] ∧
    [0, 2, 3].Pairwise (fun a b => freeBefore smallB.pages a b = true) ∧
    ({ mapped with cfg := { mapped.cfg with softLimit := 0 } } : State).cfg.softLimit ≤ (mapped.page ⟨.b, 1⟩).soft ∧
    ¬ (mapped.cfg.wearLimit ≤ (mapped.page ⟨.b, 1⟩).wear ∨ mapped.cfg.softLimit ≤ (mapped.page ⟨.b, 1⟩).soft) ∧
    1 < (mapped.lane .b).pages.length ∧ mapped.notices.length < 32 := by decide +kernel

theorem witness_EntryTakesGreaterSequence : 3 < mapped.remap.length ∧ mapped.entry 3 = .mapped ⟨.b, 1⟩ 5 ∧ 5 < 6 ∧
    mapped.entry 2 = .unmapped ∧ ({ mapped with remap := [.absent] } : State).entry 0 = .absent := by decide +kernel

theorem witness_SpaceRecomputed : small.recompute.space = small.space ∧
    ({ small with cfg := { small.cfg with reserveFloor := 64 } } : State).recompute.space = .low ∧
    ({ small with laneA := { smallA with freeList := [] }, laneB := { smallB with freeList := [] } } :
      State).recompute.space = .exhausted := by decide +kernel

theorem witness_ExhaustionDropsQueue :
    (let s : State := { (withQueued small 0 (whole 3 0)) with space := .exhausted }
     s.exhaustion = true ∧ s.commitQueue.Nodup ∧ s.notices.length + s.commitQueue.length < 32 ∧
      s.commitQueue.filterMap s.slot ≠ []) ∧
    small.exhaustion = false := by decide +kernel

theorem witness_ArbiterChoosesByPriority : (withOpA small (.mark 3 [])).laneFree .a = false ∧
    ({ small with laneA := { smallA with claims := [.commit, .hostRead false], passOver := 8 } } : State).laneFree .a
      = true ∧
    (withClaimA small .mark).laneFree .a = true := by decide +kernel

theorem witness_PatrolSearchFindsFirst : mapped.patrolPage = some (3, ⟨.b, 1⟩) ∧ small.patrolPage = none := by
  decide +kernel

theorem witness_PowerWarningDrains : small.Quiet ∧ small.mode ≠ .mounting ∧ small.causes.any = false ∧
    State.reset.Quiet ∧ State.reset.mode = .mounting ∧
    ({ small with mode := .drained, causes := ⟨false, true⟩ } : State).Quiet ∧
    ({ small with mode := .drained, causes := ⟨false, true⟩ } : State).causes = { maintenance := false, power := true } ∧
    ({ small with mode := .drained, causes := ⟨true, true⟩ } : State).causes.maintenance = true ∧
    (let s := after (.resetAssertion resetPins.straps) small
     s.powered = true ∧ s.pins.resetAsserted = true ∧ s.mode = .mounting) ∧
    openPool.Quiet ∧ openPool.mode ≠ .mounting ∧ openPool.causes.any = false ∧ openPool.exhaustion = false ∧
    ({ openPool with space := .exhausted } : State).exhaustion = true ∧ small.openSlots = [] := by decide +kernel

/-- The slots of the pool that a drain, a FLUSH or a QUIESCE seals, one for each way. -/
theorem witness_PoolSealed :
    (openPool.slot 0).map (fun sl => (sl.isOpen, sl.full)) = some (true, true) ∧
    (openPool.slot 1).map (·.isOpen) = some false ∧ openPool.slot 15 = none ∧
    openPool.slot 2 = some (partly 1 4) ∧ openPool.olderComplete (partly 1 4) = some (whole 1 0) ∧
    openPool.slot 3 = some (partly 2 3) ∧ openPool.olderComplete (partly 2 3) = none ∧ openPool.entry 2 = .unmapped ∧
    openPool.slot 4 = some (partly 3 2) ∧ openPool.copyLane 3 = some .b ∧
    openPool.slot 5 = some (partly 5 1) ∧ openPool.entry 5 = .absent ∧ openPool.copyLane 5 = none ∧
    (∀ k < 16, (openPool.slot k).all (fun sl => sl.cells.length == 64) = true) ∧
    (((List.range 16).filterMap (fun k => (openPool.slot k).filter Slot.isOpen)).map (·.page)).Nodup := by decide +kernel

theorem witness_WriteProtectSampled : small.alive = true := rfl

/-- One state for each answer of the table: mode, range, protection, space, slots. -/
theorem witness_WriteChecksInOrder : State.reset.mode ≠ .run ∧ State.reset.port = .idle ∧ small.Quiet ∧
    small.port = .idle ∧ small.mode = .run ∧ small.cfg.capacity * 64 < 383 + 2 ∧ 382 + 2 ≤ small.cfg.capacity * 64 ∧
    ({ small with cfg := { smallCfg with windows := [⟨0, 5, .locked, .posted⟩] } } : State).writeProtected (382 / 64)
      = true ∧
    ({ small with space := .low } : State).needsFirstCopy 5 = true ∧
    ({ small with slots := List.replicate 16 (some (whole 0 0)) } : State).freeCount <
      (List.range' 5 1).countP (fun page =>
        (({ small with slots := List.replicate 16 (some (whole 0 0)) } : State).mergeTarget page).isNone) := by
  decide +kernel

/-- Slots whose hold time is 0. -/
def unheld (s : State) : State := { s with cfg := { s.cfg with holdTime := 0 } }

/-- Slots 0 to 11 hold OPEN slots of page 0, slot 3 the oldest. -/
def pressed : State :=
  { small with
    slots := (List.range 12).map (fun k => some (partly 0 (if k = 3 then 0 else k + 1))) ++ List.replicate 4 none
    nextStamp := 13 }

/-- One page at the first and the last offset; a hold time of 0 over an older slot, an UNMAPPED page and a mapped one on a
lane that is ONLINE or not; four FREE slots with an oldest OPEN one; two pages, each opened or merged. -/
theorem witness_WriteOpensSlot : (small.Quiet ∧ small.port = .idle ∧ small.mode = .run ∧ 63 + 1 ≤ 64 ∧ 0 + 64 ≤ 64 ∧
      5 < small.cfg.capacity ∧ small.writeProtected 5 = false ∧ small.commitMode 5 = .posted ∧ small.space = .ample ∧
      small.mergeTarget 5 = none ∧ 5 ≤ small.freeCount ∧ small.slots[0]? = some none ∧ small.cfg.holdTime ≠ 0) ∧
    (let inFlight := { whole 5 0 with phase := .programming ⟨.a, 2⟩ 0 }
     let s := unheld (withSlot small 1 inFlight)
     s.cfg.holdTime = 0 ∧ s.mergeTarget 5 = none ∧ s.slots[0]? = some none ∧
      s.olderComplete (partly 5 1) = some inFlight) ∧
    (unheld mapped).olderComplete (partly 3 0) = none ∧ (unheld mapped).entry 2 = .unmapped ∧
    (unheld mapped).entry 3 ≠ .unmapped ∧ (unheld mapped).copyLane 3 = some .b ∧
    ({ (unheld mapped) with laneB := { mapped.laneB with online := false } } : State).copyLane 3 = none ∧
    (pressed.freeCount < 5 ∧ pressed.slots[12]? = some none ∧ pressed.mergeTarget 5 = none ∧
      pressed.slot 3 = some (partly 0 0) ∧ (partly 0 0).isOpen = true ∧
      ∀ r ∈ pressed.usedSlots, r.1 ≠ 3 → r.2.isOpen = true → (partly 0 0).stamp < r.2.stamp) ∧
    (let s := withSlot small 0 (partly 3 0)
     let lower : Part := { page := 3, off := 63, data := [1] }
     let upper : Part := { page := 4, off := 0, data := [2] }
     64 < 63 + 2 ∧ 3 + 1 < s.cfg.capacity ∧ 6 ≤ s.freeCount ∧ (s.takes lower).map (·.1) = some 0 ∧
      ((s.placing lower).takes upper).map (·.1) = some 1 ∧
      (s.takes lower).all (fun a => a.2.phase != .filling) = true) := by decide +kernel

/-- A slot that only takes the bytes, one that a merge fills, and a FILLING one whose fill a merge ends. -/
theorem witness_WriteMerges :
    (withSlot small 0 (partly 3 0)).mergeTarget 3 = some (0, partly 3 0) ∧ (partly 3 0).cells.length = 64 ∧
    ((partly 3 0).merged { page := 3, off := 63, data := [1] }).full = false ∧
    ((partly 3 0).merged { page := 3, off := 8, data := List.replicate 56 1 }).full = true ∧
    (partly 3 0).isOpen = true ∧
    (withSlot small 0 { partly 3 0 with phase := .filling }).mergeTarget 3 =
      some (0, { partly 3 0 with phase := .filling }) ∧
    (withSlot small 0 { partly 3 0 with phase := .filling }).fillGranted 0 = false ∧
    small.writeProtected 3 = false ∧ small.commitMode 3 = .posted ∧ small.space ≠ .exhausted := by decide +kernel

/-- Every page is SYNC. -/
def syncPart : State := { small with cfg := { smallCfg with windows := [⟨0, 5, .opened, .sync⟩] } }

theorem witness_SyncWriteHeld : syncPart.Quiet ∧ syncPart.port = .idle ∧ syncPart.mode = .run ∧
    syncPart.writeProtected 5 = false ∧ syncPart.commitMode 5 = .sync ∧ syncPart.space = .ample ∧
    syncPart.hasSlot 5 = false ∧ syncPart.entry 5 = .unmapped ∧ 5 ≤ syncPart.freeCount ∧
    syncPart.slots[0]? = some none ∧
    (64 < 1 + 64 ∧ 4 + 1 < syncPart.cfg.capacity ∧ syncPart.writeProtected 4 = false ∧
      syncPart.commitMode 4 = .sync ∧ syncPart.hasSlot 4 = false ∧ syncPart.entry 4 = .unmapped ∧
      6 ≤ syncPart.freeCount ∧ syncPart.slots[1]? = some none) ∧
    ({ (withSlot small 2 { whole 5 0 with owed := true }) with port := .holding [2] false } : State).slot 2 =
      some { whole 5 0 with owed := true } ∧
    ({ (withSlot small 2 { whole 5 0 with owed := true }) with port := .holding [2, 3] true } : State).slot 2 =
      some { whole 5 0 with owed := true } ∧ 3 ≠ 2 := by decide +kernel

/-- The mount, the range, slots and UNMAPPED pages, ABSENT pages, pages of a lost lane and of an ONLINE one; two pages of
each kind. -/
theorem witness_ReadTaken : State.reset.mode = .mounting ∧ State.reset.Quiet ∧ State.reset.port = .idle ∧
    small.Quiet ∧ small.port = .idle ∧ small.mode ≠ .mounting ∧ small.cfg.capacity * 64 < 383 + 2 ∧
    3 < small.cfg.capacity ∧ small.entry 3 = .unmapped ∧
    ((withSlot mapped 0 (whole 3 0)).slotByte 3 63).isSome = true ∧
    ({ small with remap := List.replicate 6 .absent } : State).entry 3 = .absent ∧
    mapped.slotByte 3 0 = none ∧ mapped.entry 3 = .mapped ⟨.b, 1⟩ 5 ∧ (mapped.lane .b).online = true ∧
    ({ mapped with laneB := { mapped.laneB with online := false } } : State).lane .b =
      { mapped.laneB with online := false } ∧
    (let both : State := { mapped with remap := mapped.remap.set 2 (.mapped ⟨.a, 3⟩ 4) }
     64 < 63 + 2 ∧ (mapped.bytesAtHand 2 63 1).isSome = true ∧ (mapped.bytesAtHand 4 0 1).isSome = true ∧
      (mapped.bytesAtHand 1 63 1).isSome = true ∧ mapped.bytesAtHand 3 0 1 = none ∧ mapped.copyLane 3 = some .b ∧
      mapped.bytesAtHand 3 63 1 = none ∧ both.bytesAtHand 2 63 1 = none ∧ both.copyLane 2 = some .a ∧
      both.bytesAtHand 3 0 1 = none ∧
      ({ mapped with laneB := { mapped.laneB with online := false } } : State).copyLane 3 = none) := by decide +kernel

theorem witness_ReadTakesNewestByte : (withSlot small 0 (whole 3 7)).slot 0 = some (whole 3 7) ∧
    ((whole 3 7).cells[63]?).join = some 9#8 ∧
    (∀ r ∈ (withSlot small 0 (whole 3 7)).slotsOf 3, r.1 ≠ 0 → r.2.stamp < 7) ∧ small.slotsOf 3 = [] := by
  decide +kernel

/-- One slot for each clause: not OPEN, whole, over an older slot, UNMAPPED, ABSENT, mapped on a lane that is ONLINE or
not. -/
theorem witness_HoldExpirySeals : small.Quiet ∧ small.exhaustion = false ∧ small.slot 15 = none ∧
    (withSlot small 0 { whole 3 0 with phase := .opened 2000 }).slot 0 = some { whole 3 0 with phase := .opened 2000 } ∧
    (withSlot (withSlot small 1 (whole 3 0)) 0 (partly 3 1)).olderComplete (partly 3 1) = some (whole 3 0) ∧
    (partly 3 1).isOpen = true ∧ (partly 3 1).full = false ∧
    (withSlot small 0 (partly 3 1)).olderComplete (partly 3 1) = none ∧ small.entry 3 = .unmapped ∧
    ({ small with remap := List.replicate 6 .absent } : State).entry 3 = .absent ∧
    (withSlot mapped 0 (partly 3 1)).olderComplete (partly 3 1) = none ∧ mapped.entry 3 = .mapped ⟨.b, 1⟩ 5 ∧
    (mapped.lane .b).online = true := by decide +kernel

theorem witness_PatrolExpiryPosts : mapped.Quiet ∧ mapped.timer.isSome = true ∧ mapped.patrolRead = none ∧
    mapped.patrolPage = some (3, ⟨.b, 1⟩) ∧ small.patrolPage = none ∧
    ({ mapped with patrolRead := some (3, ⟨.b, 1⟩) } : State).patrolRead.isSome = true := by decide +kernel

/-- A fill read under way on lane B for slot 0. -/
def filling : State :=
  withOpB (withSlot mapped 0 { partly 3 0 with phase := .filling }) (.read (.fill 0) 3 1 5)

/-- Lane A is committing slot 0 and lost at its program, with a record program waiting. -/
def committing (o : Origin) : State :=
  { (withOpA (withSlot small 0 { whole 3 0 with phase := .programming ⟨.a, 2⟩ 0, origin := o })
      (.commit 0 .programming 2 0 copy3)) with longCmd := some .saveConfig }

/-- A time-out of each kind; a commit of either origin, a record program, a host read, a fill and a patrol read that end
with their lane, under way or waiting. -/
theorem witness_TimeoutTakesLaneOffline : (filling.Quiet ∧ filling.readUnderWay .b = some 1 ∧
      filling.mode ≠ .mounting ∧ .fillRead 0 ∈ (filling.lane .b).readsEnding ∧ filling.exhaustion = false ∧
      (after (.readTimeout .b) filling).space ≠ .exhausted ∧
      filling.slot 0 = some { partly 3 0 with phase := .filling }) ∧
    ((withOpA small (.mark 3 [])).Quiet ∧ ((withOpA small (.mark 3 [])).lane .a).programUnderWay = some 3) ∧
    (State.reset.readyWait .b = some none ∧ State.reset.Quiet) ∧
    (((committing .host).lane .a).programUnderWay = some 2 ∧ 2 < ((committing .host).lane .a).pages.length ∧
      (Op.commit 0 .programming 2 0 copy3).commitOf = some (0, 2, 0) ∧ Origin.host.targetLane = none ∧
      .fillRead 0 ∉ ((committing .host).lane .a).claims ∧
      (after (.programTimeout .a) (committing .host)).space ≠ .exhausted ∧
      (committing (.migrate .a)).slot 0 =
        some { whole 3 0 with phase := .programming ⟨.a, 2⟩ 0, origin := .migrate .a }) ∧
    (let s : State := { (withOpA small (.record 0 .programming smallCfg 0 0 copy3)) with longCmd := some .saveConfig }
     (s.lane .a).programUnderWay = some 0 ∧ s.notices.length + 1 < 32) ∧
    (let s : State := { (withOpA small (.mark 3 [])) with
       longCmd := some .saveConfig
       laneA := { smallA with
         op := some (.mark 3 [])
         claims := [.recordProgram, .hostRead false, .patrolRead] }
       port := .reading [{ page := 3, off := 63, len := 1, progress := .waiting .a }] }
     (s.lane .a).programUnderWay = some 3 ∧ .recordProgram ∈ (s.lane .a).claims ∧
      LongCmd.saveConfig.recording = true ∧ (s.lane .a).op.bind Op.recordOf = none ∧
      (after (.programTimeout .a) s).notices.length < 32 ∧ .hostRead false ∈ (s.lane .a).readsEnding ∧
      (s.readPage false).map (·.page) = some 3 ∧ s.readPage true = none ∧ s.readPages ≤ 2 ∧
      .patrolRead ∈ (s.lane .a).readsEnding) := by decide +kernel

/-- An operation of lane B waits for ready. -/
def waitsB (s : State) (op : Op) : State := { s with laneB := { s.laneB with op := some op, awaitReady := true } }

/-- An operation of lane A waits for ready. -/
def waitsA (s : State) (op : Op) : State := { s with laneA := { s.laneA with op := some op, awaitReady := true } }

theorem witness_ReadySeenIssues : (waitsB mapped (.read .patrol 3 1 5)).Quiet ∧
    ((waitsB mapped (.read .patrol 3 1 5)).lane .b).op = some (.read .patrol 3 1 5) ∧
    ((waitsB (withSlot small 0 (whole 3 0)) (.commit 0 .programming 5 0 [])).lane .b).awaitReady = true ∧
    (Op.commit 0 .programming 5 0 []).commitOf = some (0, 5, 0) ∧
    (waitsB (withSlot small 0 (whole 3 0)) (.commit 0 .programming 5 0 [])).slot 0 = some (whole 3 0) ∧
    5 < (small.lane .b).pages.length ∧
    (({ small with laneB := { smallB with awaitReady := true } } : State).lane .b).op = none ∧
    (let s : State := { (waitsA small (.record 1 .programming smallCfg 0 0 [])) with longCmd := some .format }
     s.Quiet ∧ (s.lane .a).awaitReady = true ∧
      (Op.record 1 .programming smallCfg 0 0 []).recordOf = some (1, smallCfg, 0) ∧ 1 < s.laneA.pages.length ∧
      s.seq < 0xFFFFFFFFFFFF ∧ ({ s with seq := 0xFFFFFFFFFFFF } : State).notices.length < 32) ∧
    ((waitsB small (.mark 5 [])).Quiet ∧ ((waitsB small (.mark 5 [])).lane .b).awaitReady = true ∧
      (Op.mark 5 []).markPage = some 5) := by decide +kernel

theorem witness_ReadGrantsStart :
    (readWaits.Quiet ∧ readWaits.arbiter .b = some (.hostRead false) ∧ readWaits.port.healthy = true ∧
      (readWaits.readPage false).map (·.page) = some 3 ∧ readWaits.slotByte 3 63 = none ∧
      readWaits.entry 3 = .mapped ⟨.b, 1⟩ 5) ∧
    (let s := withClaimB (withSlot mapped 0 { partly 3 0 with phase := .filling }) (.fillRead 0)
     s.Quiet ∧ s.arbiter .b = some (.fillRead 0) ∧ s.slot 0 = some { partly 3 0 with phase := .filling } ∧
      s.olderComplete { partly 3 0 with phase := .filling } = none) ∧
    (let s : State := { (withClaimB mapped .relocationRead) with relocList := [(3, ⟨.b, 1⟩)] }
     s.Quiet ∧ s.arbiter .b = some .relocationRead ∧ s.relocList.head? = some (3, ⟨.b, 1⟩) ∧ s.hasSlot 3 = false ∧
      (withSlot s 0 (partly 3 0)).hasSlot 3 = true) ∧
    (let s : State := { (withClaimB mapped .patrolRead) with patrolRead := some (3, ⟨.b, 1⟩) }
     s.Quiet ∧ s.arbiter .b = some .patrolRead ∧ s.hasSlot 3 = false ∧
      (withSlot s 0 (partly 3 0)).hasSlot 3 = true) := by decide +kernel

/-- A host read waits on lane B with the other page of its read in the state given. -/
def readBeside (g : ReadProgress) (remap : List RemapEntry) : State :=
  { readWaits with
    remap := remap
    port := .reading [{ page := 2, off := 63, len := 1, progress := g }, { page := 3, off := 0, len := 1, progress := .waiting .b }]
    laneB := { readWaits.laneB with claims := [.hostRead true] } }

/-- Host reads whose source has changed: removed by a shrink, without a source, in hand, on the other lane; beside no page,
a taken page and one being read. -/
theorem witness_ReadGrantsStart_host :
    (let s : State := { readWaits with cfg := { smallCfg with capacity := 3 } }
     s.arbiter .b = some (.hostRead false) ∧ s.readPages ≤ 2 ∧ s.readPage true = none ∧ s.cfg.capacity ≤ 3) ∧
    (let s := readBeside (.granted .a []) (List.replicate 6 .absent)
     s.Quiet ∧ s.arbiter .b = some (.hostRead true) ∧ s.port.healthy = true ∧ s.readPages ≤ 2 ∧ 3 < s.cfg.capacity ∧
      s.bytesAtHand 3 0 1 = none ∧ s.copyLane 3 = none ∧ (s.readPage false).any ReadPage.onLane = true) ∧
    (let s := readBeside (.taken [] none) small.remap
     s.Quiet ∧ s.arbiter .b = some (.hostRead true) ∧ s.port.healthy = true ∧ (s.bytesAtHand 3 0 1).isSome = true ∧
      (s.readPage false).any ReadPage.open? = false ∧ (s.readPage false).any ReadPage.onLane = false) ∧
    ((readBeside (.waiting .a) small.remap).readPage false).any ReadPage.open? = true ∧
    (let s := readBeside (.waiting .a) (small.remap.set 3 (.mapped ⟨.a, 3⟩ 7))
     s.arbiter .b = some (.hostRead true) ∧ s.port.healthy = true ∧ s.bytesAtHand 3 0 1 = none ∧
      s.copyLane 3 = some .a) := by decide +kernel

/-- Fills whose source has changed: none needed, an older slot, erased bytes, no source, the other lane. -/
theorem witness_ReadGrantsStart_fill :
    let fill := fun (remap : List RemapEntry) =>
      withClaimB (withSlot { mapped with remap := remap } 0 { partly 3 1 with phase := .filling }) (.fillRead 0)
    (let s := withSlot (fill mapped.remap) 0 { whole 3 1 with phase := .filling }
     s.Quiet ∧ s.arbiter .b = some (.fillRead 0) ∧ s.exhaustion = false ∧ (s.slot 0).any Slot.full = true) ∧
    (withSlot (fill mapped.remap) 1 (whole 3 0)).olderComplete { partly 3 1 with phase := .filling } =
      some (whole 3 0) ∧
    (fill small.remap).arbiter .b = some (.fillRead 0) ∧ (fill small.remap).exhaustion = false ∧
    (fill small.remap).slot 0 = some { partly 3 1 with phase := .filling } ∧ (fill small.remap).entry 3 = .unmapped ∧
    (fill small.remap).olderComplete { partly 3 1 with phase := .filling } = none ∧
    (fill (List.replicate 6 .absent)).entry 3 = .absent ∧ (fill (List.replicate 6 .absent)).copyLane 3 = none ∧
    (fill (small.remap.set 3 (.mapped ⟨.a, 3⟩ 7))).copyLane 3 = some .a := by decide +kernel

/-- A read of each kind that a REMOUNT discards. -/
theorem witness_discarded :
    ∀ r ∈ [Reader.host false, .fill 0, .relocation, .patrol],
      let s := (withOpB mapped (.read r 3 1 5)).modLane .b (fun x => { x with discard := true })
      s.Quiet ∧ (s.lane .b).discard = true ∧ (s.lane .b).readOp = some (r, 3, 1, 5) := by decide +kernel

/-- A COMMIT claim waits for a host slot, and for a MIGRATE slot whose test passes or fails. -/
def migrating (threshold : Nat) : State :=
  { (withClaimB (withQueued mapped 0 { whole 3 0 with origin := .migrate .b }) .commit) with
    cfg := { smallCfg with migThreshold := threshold }
    laneB := { mapped.laneB with
      claims := [.commit]
      pages := mapped.laneB.pages.set 5 { state := .free, wear := 20, soft := 0 } } }

theorem witness_CommitGrantDispatches :
    (let s := withClaimA (withQueued mapped 0 (whole 3 0)) .commit
     s.Quiet ∧ s.arbiter .a = some .commit ∧ s.commitQueue.find? (s.eligible .a) = some 0 ∧
      s.slot 0 = some (whole 3 0) ∧ (s.lane .a).freeList.head? = some 2 ∧ 2 < (s.lane .a).pages.length) ∧
    ((migrating 16).Quiet ∧ (migrating 16).arbiter .b = some .commit ∧
      (migrating 16).commitQueue.find? ((migrating 16).eligible .b) = some 0 ∧
      (migrating 16).migrationTest .b { whole 3 0 with origin := .migrate .b } = true ∧
      ((migrating 16).lane .b).freeList.getLast? = some 5) ∧
    ((migrating 30).Quiet ∧ (migrating 30).arbiter .b = some .commit ∧ (migrating 30).longCmd = none ∧
      (migrating 30).commitQueue = [0] ∧ (migrating 30).eligible .b 0 = true ∧
      (migrating 30).migrationTest .b { whole 3 0 with origin := .migrate .b } = false) := by decide +kernel

theorem witness_RecordAndMarkGrantsProgram :
    (let s : State := { (withClaimA small .recordProgram) with longCmd := some .format }
     s.Quiet ∧ s.arbiter .a = some .recordProgram ∧ s.seq < 0xFFFFFFFFFFFF ∧ 0 < s.laneA.pages.length ∧
      ({ s with seq := 0xFFFFFFFFFFFF } : State).arbiter .a = some .recordProgram ∧ s.notices.length < 32) ∧
    (let s : State := { small with laneA := { smallA with claims := [.mark], markList := [5] } }
     s.Quiet ∧ s.arbiter .a = some .mark ∧ (s.lane .a).markList.head? = some 5 ∧ 5 < (s.lane .a).pages.length) := by
  decide +kernel

theorem witness_ReadOutcomesCounted : (∀ o ∈ (decodeRead copy3 3 5).outcomes, o ≠ .uncorrectable) ∧
    .uncorrectable ∈ (decodeRead erasedPage 3 5).outcomes ∧ small.notices.length < 32 := by decide +kernel

theorem witness_HostReadAnswered :
    let s : State := { (reading (.host false)) with
      port := .reading [{ page := 3, off := 0, len := 2, progress := .granted .b [none, none] }] }
    s.Quiet ∧ copy3.length = 88 ∧ (s.lane .b).discard = false ∧
      (s.lane .b).readOp = some (.host false, 3, 1, 5) ∧
      (s.port.single.bind (·.progress.slotsGave)).isSome = true ∧ s.relocList.length < 8 := by decide +kernel

theorem witness_FillReadFills : filling.Quiet ∧ (filling.lane .b).discard = false ∧ filling.exhaustion = false ∧
    (filling.lane .b).readOp = some (.fill 0, 3, 1, 5) ∧ (Reader.fill 0).fillSlot = some 0 ∧
    filling.slot 0 = some { partly 3 0 with phase := .filling } := by decide +kernel

/-- The entry no longer holds, the pool takes the slot, the pool refuses it. -/
theorem witness_RelocationReadStages :
    let s : State := { (reading .relocation) with relocList := [(3, ⟨.b, 1⟩)] }
    s.Quiet ∧ (s.lane .b).discard = false ∧ s.exhaustion = false ∧ (s.lane .b).readOp = some (.relocation, 3, 1, 5) ∧
      (withSlot s 0 (partly 3 0)).hasSlot 3 = true ∧ s.hasSlot 3 = false ∧ s.mappedAt 3 ⟨.b, 1⟩ = true ∧
      s.causes.any = false ∧ 5 ≤ s.freeCount ∧ s.firstFree = some 0 ∧
      ({ s with causes := ⟨true, false⟩ } : State).causes.any = true ∧
      ({ s with mode := .draining } : State).mode ≠ .run := by decide +kernel

/-- One read for each class. -/
theorem witness_PatrolReadJudged :
    let s := reading .patrol
    s.Quiet ∧ (s.lane .b).discard = false ∧ s.exhaustion = false ∧ (s.lane .b).readOp = some (.patrol, 3, 1, 5) ∧
      (withSlot s 0 (partly 3 0)).hasSlot 3 = true ∧ s.hasSlot 3 = false ∧ s.mappedAt 3 ⟨.b, 1⟩ = true ∧
      .corrected ∈ (s.decode (copy3.set 1 6#8) 3 5).outcomes ∧ .corrected ∉ (s.decode copy3 3 5).outcomes ∧
      (s.decode erasedPage 3 5).tag ≠ .good ∧ .corrected ∉ (s.decode erasedPage 3 5).outcomes ∧
      (s.decode copy3 3 5).tag = .good ∧ (s.decode copy3 3 5).newlyLost = 0 ∧ s.firstFree = some 0 ∧
      s.migrationTarget ⟨.b, 1⟩ = none ∧
      (withOpB (migrating 16) (.read .patrol 3 1 5)).migrationTarget ⟨.b, 1⟩ = some .b := by decide +kernel

theorem witness_ProgramsEnd :
    (let s := withOpA (withSlot small 0 { whole 3 0 with phase := .programming ⟨.a, 2⟩ 0 })
        (.commit 0 .programming 2 0 copy3)
     s.Quiet ∧ ((s.lane .a).commitOp).isSome = true ∧ (s.slot 0).isSome = true) ∧
    (let s := withOpA small (.record 0 .programming smallCfg 0 0 copy3)
     s.Quiet ∧ (s.laneA.recordOp).isSome = true) ∧
    (let s := withOpA { small with laneA := { smallA with markList := [5] } } (.mark 5 copy3)
     s.Quiet ∧ (s.lane .a).markOp = some 5 ∧ (s.lane .a).markList.head? = some 5) := by decide +kernel

/-- A commit of page 3 at its read-back, target A:0002. -/
def verifying (attempts seq : Nat) : State :=
  withOpA (withSlot mapped 0 { whole 3 0 with phase := .verifying ⟨.a, 2⟩ seq, attempts := attempts })
    (.commit 0 .verifying 2 seq copy3)

theorem witness_CommitCompletes : (verifying 0 6).Quiet ∧
    ((verifying 0 6).lane .a).commitOp = some (0, .verifying, 2, 6, copy3) ∧ copy3.length = 88 ∧
    3 < (verifying 0 6).remap.length ∧ 2 < ((verifying 0 6).lane .a).pages.length ∧
    (verifying 0 6).entry 3 = .mapped ⟨.b, 1⟩ 5 ∧ 5 < 6 ∧ (verifying 0 5).entry 3 = .mapped ⟨.b, 1⟩ 5 ∧
    ({ (verifying 0 6) with remap := small.remap } : State).entry 3 = .unmapped ∧
    (after (.commitVerifyDone .a copy3) (verifying 0 6)).space ≠ .exhausted := by decide +kernel

/-- A departing slot that owes a held answer, alone and beside another, and carries the last flush mark or not; and one
whose departure ends a drain. -/
theorem witness_Departed :
    (let sl := { whole 3 0 with owed := true, flushMark := true }
     let s : State :=
       { (withSlot small 0 sl) with
         mode := .draining, causes := ⟨true, false⟩, longCmd := some (.flush false), port := .holding [0] false }
     sl.owed = true ∧ s.port = .holding [0] false ∧ (∀ j < 16, j ≠ 0 → s.slot j = none) ∧ s.mode = .draining ∧
      s.causes.maintenance = true ∧ s.longCmd = some (.flush false) ∧
      ({ s with longCmd := some .quiesce } : State).longCmd = some .quiesce ∧
      (withSlot s 1 sl).slot 1 = some sl) ∧
    ({ small with port := .holding [0, 1] true } : State).port = .holding [0, 1] true ∧ small.mode ≠ .draining := by
  decide +kernel

theorem witness_CommitVerifyFails : (verifying 0 6).Quiet ∧ erasedPage.length = 88 ∧
    (verifying 0 6).space ≠ .exhausted ∧ ((verifying 0 6).lane .a).commitOp = some (0, .verifying, 2, 6, copy3) ∧
    erasedPage ≠ copy3 ∧ (verifying 2 6).space ≠ .exhausted ∧
    ((verifying 2 6).slot 0).map (fun sl => sl.attempts) = some 2 := by decide +kernel

/-- The read-back of a record program of a long command. -/
def recording (c : LongCmd) : State :=
  { (withOpA small (.record 1 .verifying smallCfg 0 0 copy3)) with longCmd := some c }

theorem witness_RecordReadBackEnds : (recording .saveConfig).Quiet ∧ (recording .saveConfig).notices.length < 32 ∧
    (recording .saveConfig).laneA.op = some (.record 1 .verifying smallCfg 0 0 copy3) ∧
    (recording .saveConfig).laneA.awaitReady = false ∧ copy3.length = 88 ∧
    erasedPage ≠ copy3 ∧ LongCmd.saveConfig.capacity = none ∧ (LongCmd.setCapacity 4).capacity = some 4 ∧
    (recording (.setCapacity 4)).remap.length = (recording (.setCapacity 4)).cfg.capacity ∧
    (recording .format).Quiet ∧
    (let s : State := { (recording (.setCapacity 2)) with remap := mapped.remap }
     3 ∈ List.range' 2 (s.cfg.capacity - 2) ∧ s.entry 3 = .mapped ⟨.b, 1⟩ 5 ∧ 1 < (s.lane .b).pages.length ∧
      (∀ j ∈ List.range' 2 (s.cfg.capacity - 2), j ≠ 3 → s.mappedAt j ⟨.b, 1⟩ = false) ∧
      3 ∈ List.range s.cfg.capacity) := by decide +kernel

theorem witness_MountReadsRecords :
    (State.reset.Quiet ∧ (State.reset.lane .a).op = none ∧
      State.reset.mount.map (fun m => (m.phase, m.scanA.waiting, m.scanB.waiting)) = some (.wait, true, true)) ∧
    (let s := mounting (fun m => { m with scanB := { m.scanB with waiting := false } })
     s.Quiet ∧ s.laneA.online = true ∧
      s.mount.map (fun m => (m.phase, m.scanA.waiting, m.scanB.waiting)) = some (.wait, true, false)) ∧
    (let s := { (mounting (fun m => { m with scanA := { m.scanA with waiting := false } })) with
        laneA := { smallA with online := false } }
     s.Quiet ∧ s.laneA.online = false ∧ s.laneB.online = true ∧
      s.mount.map (fun m => (m.phase, m.scanA.waiting, m.scanB.waiting)) = some (.wait, false, true) ∧
      s.mount.map (fun m => (m.found0, m.found1)) = some (none, none)) ∧
    (let s := mounting (fun m => { m with phase := .record })
     s.Quiet ∧ erasedPage.length = 88 ∧ s.laneA.online = true ∧ s.mount.map (·.sysPage) = some 0) ∧
    (let s := mounting (fun m => { m with phase := .record, sysPage := 1 })
     s.mount.map (fun m => (m.phase, m.sysPage)) = some (.record, 1)) := by decide +kernel

/-- A page image whose tag has the kind. -/
def tagged (kind : Byte) (logical seq : Nat) : List Byte :=
  pageImage (List.replicate 64 7#8) { kind := kind, logical := logical, seq := seq, wear := 1, soft := 0, poison := 0 }

/-- One page for each class of the table; the last page of a lane, and the loss of one. -/
theorem witness_ScanJudgesPage :
    (let s := { (mounting (fun m => { m with phase := .scan, scanA := { m.scanA with reading := some 2 } })) with
      formatBase := 4 }
    s.Quiet ∧ s.notices.length < 32 ∧ s.mount.map (fun m => (m.phase, m.scanA.reading)) = some (.scan, some 2) ∧
      2 + 1 < s.geometry.pagesPerLane ∧ 2 ∉ (s.lane .a).markList ∧
      readTag (tagBytes erasedPage) = .blank ∧ readTag (tagBytes (copy3.set 87 0#8)) = .badCrc ∧
      (readTag (tagBytes (tagged 0x0E 0 9))).tag?.map (·.kind) = some 0x0E#8 ∧
      (readTag (tagBytes (tagged 0x0C 0xFFFF 9))).tag?.map (·.kind) = some 0x0C#8 ∧
      (readTag (tagBytes (tagged 0x01 6 9))).tag?.map (fun t => (t.kind, t.logical)) = some (0x01#8, 6) ∧
      (readTag (tagBytes (tagged 0x02 5 3))).tag?.map (fun t => (t.kind, t.seq)) = some (0x02#8, 3) ∧
      (readTag (tagBytes (tagged 0x03 5 4))).tag?.map (fun t => (t.logical, t.seq)) = some (5, 4) ∧
      (readTag (tagBytes (tagged 0x55 5 4))).tag?.map (·.kind) = some 0x55#8) ∧
    (scanEnding.Quiet ∧ scanEnding.mode = .mounting ∧ scanEnding.readUnderWay .b = some 1023 ∧
      scanEnding.mount.map (fun m => (m.phase, m.scanB.reading, m.scanA.reading)) =
        some (.scan, some 1023, some 2) ∧
      scanEnding.geometry.pagesPerLane ≤ 1023 + 1) := by decide +kernel

/-- A copy that is not intact and an intact one of the lower sequence, one that is not intact alone, a page with a mark
and a SUSPECT one. -/
def classedPages : List Classed :=
  [{ page := ⟨.a, 2⟩, cls := .candidate 3 9 false }, { page := ⟨.b, 4⟩, cls := .candidate 3 8 true },
   { page := ⟨.b, 5⟩, cls := .candidate 4 7 false }, { page := ⟨.a, 3⟩, cls := .retired },
   { page := ⟨.a, 4⟩, cls := .suspect true }]

theorem witness_ChooseTakesNewestIntact :
    (∀ c ∈ classedPages, c.candidateFor 5 = none) ∧
    ({ page := ⟨.b, 4⟩, cls := .candidate 3 8 true } : Classed).candidateFor 3 = some (8, true) ∧
    (∀ d ∈ classedPages, d ≠ { page := ⟨.b, 4⟩, cls := .candidate 3 8 true } →
      (d.candidateFor 3).all (fun r => r.2 != true || decide (r.1 < 8)) = true) ∧
    ({ page := ⟨.b, 5⟩, cls := .candidate 4 7 false } : Classed).candidateFor 4 = some (7, false) ∧
    (∀ d ∈ classedPages, (d.candidateFor 4).all (fun r => !r.2) = true) ∧ 5 < smallCfg.capacity ∧
    (classedPages.map (·.page)).Nodup ∧ (∀ c ∈ classedPages, c.page.index < (small.lane c.page.lane).pages.length) ∧
    (small.lane .a).markList = [] ∧ (small.lane .b).markList = [] ∧
    (∃ c ∈ classedPages, c.cls = .retired) ∧ (∃ c ∈ classedPages, c.cls = .suspect true) ∧
    ({ small with laneB := { smallB with markList := [2] } } : State).laneB.markList = [2] ∧
    (∀ c ∈ classedPages, c.page ≠ ⟨.a, 5⟩) ∧ small.notices.length + classedPages.length ≤ 32 ∧
    (∃ d ∈ classedPages, (d.candidateFor 3).any (·.2) = true) ∧
    (∀ d ∈ classedPages, (d.candidateFor 3).all (fun r => !r.2 || decide (r.1 < 9)) = true) ∧
    (∀ d ∈ classedPages, d ≠ { page := ⟨.b, 5⟩, cls := .candidate 4 7 false } →
      (d.candidateFor 4).all (fun r => decide (r.1 < 7)) = true) ∧
    (∀ c ∈ [({ page := ⟨.b, 4⟩, cls := .candidate 3 8 true } : Classed)], ∀ n, n < smallCfg.capacity →
      (c.candidateFor n).all (·.2) = true) := by decide +kernel

theorem witness_MountEnds :
    let s := mounting (fun m => { m with phase := .scan, scanB := { m.scanB with reading := some 1023 } })
    s.Quiet ∧ s.mode = .mounting ∧ erasedPage.length = 88 ∧
      s.mount.map (fun m => (m.phase, m.scanA.reading, m.scanB.reading)) = some (.scan, none, some 1023) ∧
      1023 + 1 = s.geometry.pagesPerLane := by decide +kernel

theorem witness_ReportsAnswered : small.Listening ∧ 5 < small.cfg.capacity ∧ 1023 < small.geometry.pagesPerLane ∧
    small.geometry.twoLanes = true ∧ mapped.entry 3 = .mapped ⟨.b, 1⟩ 5 := by decide +kernel

theorem witness_NoticesAndFaults : small.Listening ∧ small.notices = [] ∧
    (let s : State := { small with notices := [spaceNotice .low] }
     s.Listening ∧ s.notices.head? = some (spaceNotice .low)) ∧
    (let s : State := { small with serial := .answering [1, 0, 7] true }
     s.Quiet ∧ s.serial = .answering [1, 0, 7] true) := by decide +kernel

/-- Every parameter at the ends of its range, the wear limit raised and lowered, a window that is SEALED and one that is
not. -/
theorem witness_ParametersAndWindowsSet : small.Listening ∧ small.mode ≠ .mounting ∧ 0 ≤ 60000 ∧ 65535 ≤ 65535 ∧
    (16 ≤ 16 ∧ 16 ≤ 1000000) ∧ 1 ≤ 255 ∧ 1 ≤ 100 ∧ 511 < 512 ∧ 2 ≤ 64 ∧ small.cfg.wearLimit ≤ 16000000 ∧
    1000 < small.cfg.wearLimit ∧ 1000 ≤ 1000 ∧ (5 : Nat) < small.cfg.capacity ∧
    (small.cfg.windows[3]?).all (fun v => v.protection != .sealed) = true ∧
    (let s : State := { small with cfg := { smallCfg with windows := [⟨0, 5, .sealed, .posted⟩] } }
     s.Listening ∧ (s.cfg.windows[0]?).any (fun v => v.protection == .sealed) = true) ∧
    ({ State.reset with serial := .receiving } : State).Listening := by decide +kernel

theorem witness_ResumeEndsMaintenance :
    (let s : State := { small with mode := .drained, causes := ⟨true, false⟩ }
     s.Listening ∧ s.longCmd ≠ some .quiesce ∧ s.longCmd ≠ some .format ∧ s.longCmd.bind LongCmd.capacity = none ∧
      s.causes = ⟨true, false⟩ ∧ ({ s with longCmd := some (.setCapacity 16) } : State).Listening ∧
      (LongCmd.setCapacity 16).capacity.isSome = true) ∧
    (let s : State := { State.reset with serial := .receiving }
     s.Listening ∧ s.mode = .mounting ∧ s.longCmd = none) := by decide +kernel

/-- The part is quiesced. -/
def quiesced : State := { small with mode := .drained, causes := ⟨true, false⟩, timer := none }

theorem witness_RecordCommandsAccepted : small.Listening ∧ small.longCmd = none ∧ small.mode ≠ .mounting ∧
    small.notices.length < 32 ∧ small.cfg.windows[3]? = some defaultWindow ∧ quiesced.Listening ∧
    quiesced.mode = .drained ∧ quiesced.causes.maintenance = true ∧ 16 ≤ quiesced.geometry.maxCapacity ∧
    quiesced.shrinkHitsSeal 16 = false ∧ quiesced.anySealed = false ∧ small.mode ≠ .drained := by decide +kernel

theorem witness_DrainCommandsAccepted : small.Listening ∧ small.longCmd = none ∧ small.mode ≠ .mounting ∧
    small.anyFlushMark = false ∧ small.causes.any = false ∧ quiesced.causes.any = true ∧ quiesced.mode = .drained ∧
    quiesced.causes.maintenance = true ∧ openPool.Listening ∧ openPool.longCmd = none ∧ openPool.mode ≠ .mounting ∧
    openPool.exhaustion = false ∧ openPool.allFree = false ∧ openPool.causes.any = false ∧ small.allFree = true ∧
    (let s : State := { (withOpB readWaits (.read .patrol 3 1 5)) with mode := .drained, causes := ⟨true, false⟩ }
     s.Listening ∧ s.longCmd = none ∧ s.port ≠ .idle ∧ (Op.read .patrol 3 1 5).isRead = true ∧
      (s.lane .b).op = some (.read .patrol 3 1 5)) := by decide +kernel

/-- A SEALED window over pages 0 to 19 of a quiesced part of 20 pages. -/
def sealedPart : State :=
  { quiesced with cfg := { smallCfg with capacity := 20, windows := [⟨0, 19, .sealed, .posted⟩, ⟨5, 4, .opened, .posted⟩] } }

/-- Each refusal of the checks at a value next to its range. -/
theorem witness_FramesRefusedInOrder : small.Listening ∧ frameWhole [0x01, 0x00, 0x16] = true ∧
    frameBad [0x01, 0x00, 0x16] = true ∧ frameCommand 0x30 [] = .unknownCommand 0x30 [] ∧
    frameCommand 0x09 [0x09] = .unknownCommand 0x09 [0x09] ∧
    ([0, 0, 0] : List Byte).length ≠ 4 ∧ 3 < (([4, 0, 0, 0, 1, 0, 0] : List Byte).getD 0 0#8).toNat ∧
    2 < (([3, 0, 0, 0, 1, 3, 0] : List Byte).getD 5 0#8).toNat ∧
    (let ps : List Byte := [3, 0, 0, 0, 6, 0, 0]
     beNat ((ps.drop 1).take 2) ≤ beNat ((ps.drop 3).take 2) ∧ small.cfg.capacity ≤ beNat ((ps.drop 3).take 2)) ∧
    (sealedPart.cfg.windows[beNat [1]]?).all (fun w => decide (w.last < w.first)) = true ∧
    (small.cfg.windows[beNat [4]]?).all (fun w => decide (w.last < w.first)) = true ∧ beNat [0, 15] < 16 ∧
    small.geometry.maxCapacity < beNat [0xFF, 0xFF] ∧ small.cfg.capacity ≤ beNat [0, 6] ∧
    (if small.geometry.twoLanes then 1 else 0) < (([2, 0, 0] : List Byte).getD 0 0#8).toNat ∧
    small.geometry.pagesPerLane ≤ beNat [4, 0] ∧
    paramRows.map (fun row => (row.2 60000, row.2 60001)) =
      [(true, false), (true, true), (true, true), (true, true), (false, false), (false, false), (false, false),
       (false, false)] ∧
    ({ small with longCmd := some .saveConfig } : State).longCmd.isSome = true ∧
    ({ State.reset with serial := .receiving } : State).mode = .mounting ∧ quiesced.longCmd = none ∧
    sealedPart.anySealed = true ∧ 16 ≤ small.geometry.maxCapacity ∧ small.mode ≠ .drained ∧ sealedPart.Listening ∧
    sealedPart.mode = .drained ∧ sealedPart.causes.maintenance = true ∧ 19 < sealedPart.cfg.capacity ∧
    small.cfg.windows[3]? = some defaultWindow ∧ State.reset.serial ≠ .receiving ∧
    decodeFrame (makeFrame 0x23 []) = some (.quiesce []) ∧ State.reset.powered = true ∧
    State.reset.serial = .idle ∧
    ({ small with serial := .answering [1, 0, 7] false } : State).serial = .answering [1, 0, 7] false := by
  decide +kernel

end Sys2Proof.Tests
end

section
/-! PROOFS. Pages, copies and the map: what a page, a lane and the notice queue read after the operations of a release,
the order of a free list, and from these the rules of a release, of a remap entry and of the space state. -/

namespace Sys2Proof.Machine

variable (s : State)

/-! ### Lanes, page records and notices after an update -/

theorem laneId_eq_other_of_ne {l m : LaneId} (h : m ≠ l) : m = l.other := by
  cases l <;> cases m <;> simp [LaneId.other] at h ⊢

theorem State.lane_modLane_of_ne {l m : LaneId} (f : Lane → Lane) (h : m ≠ l) :
    (s.modLane l f).lane m = s.lane m := by
  rw [laneId_eq_other_of_ne h, State.lane_modLane_other]

@[simp] theorem State.lane_give (n : Notice) (l : LaneId) : (s.give n).lane l = s.lane l := by cases l <;> rfl

@[simp] theorem State.page_give (n : Notice) (p : PPage) : (s.give n).page p = s.page p := by
  simp [State.page]

theorem State.notices_give_of_room (n : Notice) (h : s.notices.length < 32) :
    (s.give n).notices = s.notices ++ [n] := if_pos h

@[simp] theorem State.lane_setPage (p : PPage) (r : PageRec) :
    (s.setPage p r).lane p.lane =
      { s.lane p.lane with pages := (s.lane p.lane).pages.set p.index r } := by
  simp [State.setPage]

@[simp] theorem State.lane_setPage_other (p : PPage) (r : PageRec) :
    (s.setPage p r).lane p.lane.other = s.lane p.lane.other := by
  simp [State.setPage]

theorem State.page_setPage_self {p : PPage} (r : PageRec) (h : p.index < (s.lane p.lane).pages.length) :
    (s.setPage p r).page p = r := by
  simp [State.page, h]

theorem State.page_setPage_of_ne {p q : PPage} (r : PageRec) (h : q ≠ p) : (s.setPage p r).page q = s.page q := by
  obtain ⟨l, i⟩ := p
  obtain ⟨m, j⟩ := q
  by_cases hl : m = l
  · subst hl
    have hij : i ≠ j := fun e => h (by rw [e])
    simp [State.page, State.setPage, hij]
  · simp [State.page, State.setPage, State.lane_modLane_of_ne s _ hl]

/-- A change of a lane that leaves its page table alone changes no page. -/
theorem State.page_modLane {l : LaneId} {f : Lane → Lane} (h : (f (s.lane l)).pages = (s.lane l).pages) (p : PPage) :
    (s.modLane l f).page p = s.page p := by
  by_cases hl : p.lane = l
  · subst hl; simp [State.page, h]
  · simp [State.page, State.lane_modLane_of_ne s f hl]

/-! ### The order of a free list (01 R10) -/

/-- The wear of a page index of a page table. -/
def wearAt (pages : List PageRec) (i : Nat) : Nat := (pages.getD i freshPage).wear

theorem freeBefore_iff {pages : List PageRec} {i j : Nat} : freeBefore pages i j = true ↔
    wearAt pages i < wearAt pages j ∨ (wearAt pages i = wearAt pages j ∧ i < j) := by
  simp [freeBefore, wearAt]

theorem freeBefore_trans {pages : List PageRec} {i j k : Nat} (hij : freeBefore pages i j = true)
    (hjk : freeBefore pages j k = true) : freeBefore pages i k = true := by
  rw [freeBefore_iff] at *; omega

theorem freeBefore_of_not {pages : List PageRec} {i j : Nat} (hne : i ≠ j) (h : ¬ freeBefore pages i j = true) :
    freeBefore pages j i = true := by
  rw [freeBefore_iff] at *; omega

/-- A new state of a page leaves its wear, and so the order of the free list, as it was. -/
theorem wearAt_setState (pages : List PageRec) (i j : Nat) (st : PageState) :
    wearAt (pages.set i { pages.getD i freshPage with state := st }) j = wearAt pages j := by
  by_cases hij : i = j
  · subst hij
    by_cases hi : i < pages.length <;> simp [wearAt, hi]
  · simp [wearAt, hij]

theorem freeBefore_setState (pages : List PageRec) (i : Nat) (st : PageState) :
    freeBefore (pages.set i { pages.getD i freshPage with state := st }) = freeBefore pages := by
  funext a b
  rw [Bool.eq_iff_iff, freeBefore_iff, freeBefore_iff]
  simp only [wearAt_setState]

theorem insertFree_eq_orderedInsert (pages : List PageRec) (i : Nat) (l : List Nat) :
    insertFree pages i l = l.orderedInsert (fun a b => freeBefore pages a b = true) i := by
  induction l with
  | nil => rfl
  | cons j js ih => rw [insertFree, List.orderedInsert, ih]

theorem insertFree_setState (pages : List PageRec) (i : Nat) (st : PageState) (l : List Nat) :
    insertFree (pages.set i { pages.getD i freshPage with state := st }) i l = insertFree pages i l := by
  simp only [insertFree_eq_orderedInsert, freeBefore_setState]

theorem insertFree_perm (pages : List PageRec) (i : Nat) (l : List Nat) : (insertFree pages i l).Perm (i :: l) := by
  rw [insertFree_eq_orderedInsert]
  exact List.perm_orderedInsert _ i l

theorem pairwise_insertFree (pages : List PageRec) (i : Nat) (l : List Nat) (hi : i ∉ l)
    (hl : l.Pairwise (fun a b => freeBefore pages a b = true)) :
    (insertFree pages i l).Pairwise (fun a b => freeBefore pages a b = true) := by
  induction l with
  | nil => exact List.pairwise_singleton _ i
  | cons j js ih =>
    obtain ⟨hij, hijs⟩ := not_or.mp (mt List.mem_cons.mpr hi)
    obtain ⟨hj, hjs⟩ := List.pairwise_cons.mp hl
    rw [insertFree]
    split
    next hbefore =>
      refine List.pairwise_cons.mpr ⟨fun k hk => ?_, hl⟩
      rcases List.mem_cons.mp hk with rfl | hk
      · exact hbefore
      · exact freeBefore_trans hbefore (hj k hk)
    next hafter =>
      refine List.pairwise_cons.mpr ⟨fun k hk => ?_, ih hijs hjs⟩
      rcases List.mem_cons.mp ((insertFree_perm pages i js).mem_iff.mp hk) with rfl | hk
      · exact freeBefore_of_not hij hafter
      · exact hj k hk

/-! ### A page withdrawn, a page freed (01 R12, R14, 06 R107) -/

@[simp] theorem Lane.appendMark_pages (x : Lane) (i : Nat) : (x.appendMark i).pages = x.pages := rfl

@[simp] theorem Lane.appendMark_freeList (x : Lane) (i : Nat) : (x.appendMark i).freeList = x.freeList := rfl

theorem Lane.mem_appendMark (x : Lane) (i : Nat) : i ∈ (x.appendMark i).markList := by
  unfold Lane.appendMark
  split
  next hmember => exact List.contains_iff_mem.mp hmember
  next => exact List.mem_append_right _ List.mem_cons_self

@[simp] theorem State.retire_cfg (p : PPage) : (s.retire p).cfg = s.cfg := rfl
@[simp] theorem State.retire_remap (p : PPage) : (s.retire p).remap = s.remap := rfl
@[simp] theorem State.retire_slots (p : PPage) : (s.retire p).slots = s.slots := rfl
@[simp] theorem State.retire_notices (p : PPage) : (s.retire p).notices = s.notices := rfl

theorem State.page_retire (p q : PPage) :
    (s.retire p).page q = (s.setPage p { s.page p with state := .retired }).page q :=
  State.page_modLane _ rfl q

@[simp] theorem State.freeList_retire (p : PPage) :
    ((s.retire p).lane p.lane).freeList = (s.lane p.lane).freeList := by
  simp [State.retire]

theorem State.mem_markList_retire (p : PPage) : p.index ∈ ((s.retire p).lane p.lane).markList := by
  rw [State.retire, State.lane_modLane]
  exact Lane.mem_appendMark _ _

@[simp] theorem State.lane_retire_other (p : PPage) : (s.retire p).lane p.lane.other = s.lane p.lane.other := by
  simp [State.retire]

/-- The release of a copy below both limits: FREE, in its place of its lane's free list (01 R10, R12). -/
def State.freed (s : State) (p : PPage) : State :=
  (s.setPage p { s.page p with state := .free }).modLane p.lane
    (fun x => { x with freeList := insertFree x.pages p.index x.freeList })

@[simp] theorem State.freed_remap (p : PPage) : (s.freed p).remap = s.remap := rfl
@[simp] theorem State.freed_slots (p : PPage) : (s.freed p).slots = s.slots := rfl
@[simp] theorem State.freed_notices (p : PPage) : (s.freed p).notices = s.notices := rfl

theorem State.page_freed (p q : PPage) :
    (s.freed p).page q = (s.setPage p { s.page p with state := .free }).page q :=
  State.page_modLane _ rfl q

@[simp] theorem State.lane_freed (p : PPage) : (s.freed p).lane p.lane =
    { s.lane p.lane with
      pages := (s.lane p.lane).pages.set p.index { s.page p with state := .free }
      freeList := insertFree (s.lane p.lane).pages p.index (s.lane p.lane).freeList } := by
  simp only [State.freed, State.lane_modLane, State.lane_setPage, State.page, insertFree_setState]

@[simp] theorem State.lane_freed_other (p : PPage) : (s.freed p).lane p.lane.other = s.lane p.lane.other := by
  simp [State.freed]

theorem State.freeBefore_freed (p : PPage) :
    freeBefore ((s.freed p).lane p.lane).pages = freeBefore (s.lane p.lane).pages := by
  rw [State.lane_freed]
  exact freeBefore_setState ..

/-! ### The release of a copy (01 R12) -/

theorem State.atLimit_iff (r : PageRec) :
    s.atLimit r = true ↔ s.cfg.wearLimit ≤ r.wear ∨ s.cfg.softLimit ≤ r.soft := by
  simp [State.atLimit]

theorem State.release_of_limit {p : PPage} (n : Nat)
    (h : s.cfg.wearLimit ≤ (s.page p).wear ∨ s.cfg.softLimit ≤ (s.page p).soft) :
    s.release p n = (s.retire p).give
      (retiredNotice p (some n) (if s.cfg.wearLimit ≤ (s.page p).wear then causeWear else causeSoft)) :=
  if_pos ((s.atLimit_iff _).mpr h)

theorem State.release_of_below {p : PPage} (n : Nat)
    (h : ¬ (s.cfg.wearLimit ≤ (s.page p).wear ∨ s.cfg.softLimit ≤ (s.page p).soft)) :
    s.release p n = s.freed p :=
  if_neg fun g => h ((s.atLimit_iff _).mp g)

/-- A release withdraws the page and gives a notice, or frees the page. -/
theorem State.release_cases (p : PPage) (n : Nat) :
    (∃ notice, s.release p n = (s.retire p).give notice) ∨ s.release p n = s.freed p := by
  by_cases h : s.cfg.wearLimit ≤ (s.page p).wear ∨ s.cfg.softLimit ≤ (s.page p).soft
  · exact .inl ⟨_, s.release_of_limit n h⟩
  · exact .inr (s.release_of_below n h)

theorem State.page_release_of_ne {p q : PPage} (n : Nat) (h : q ≠ p) : (s.release p n).page q = s.page q := by
  obtain ⟨notice, e⟩ | e := s.release_cases p n
  · rw [e, State.page_give, State.page_retire, State.page_setPage_of_ne s _ h]
  · rw [e, State.page_freed, State.page_setPage_of_ne s _ h]

@[simp] theorem State.release_remap (p : PPage) (n : Nat) : (s.release p n).remap = s.remap := by
  obtain ⟨notice, e⟩ | e := s.release_cases p n <;> simp [e]

@[simp] theorem State.release_slots (p : PPage) (n : Nat) : (s.release p n).slots = s.slots := by
  obtain ⟨notice, e⟩ | e := s.release_cases p n <;> simp [e]

@[simp] theorem State.lane_release_other (p : PPage) (n : Nat) :
    (s.release p n).lane p.lane.other = s.lane p.lane.other := by
  obtain ⟨notice, e⟩ | e := s.release_cases p n <;> simp [e]

/-- Settles O20: the order of a free list by induction on it, the rest by the two cases of a release. -/
theorem releaseRule : Obligations.ReleaseRule := by
  refine ⟨pairwise_insertFree, fun s p n hp => ⟨fun hlimit => ?_, fun hbelow => ?_,
    fun q hq => s.page_release_of_ne n hq, s.release_remap p n, s.release_slots p n, s.lane_release_other p n⟩⟩
  · rw [s.release_of_limit n hlimit]
    refine ⟨?_, by simp, by simpa using s.mem_markList_retire p, fun hroom => ?_⟩
    · rw [State.page_give, State.page_retire, State.page_setPage_self s _ hp]
    · exact State.notices_give_of_room (s.retire p) _ hroom
  · rw [s.release_of_below n hbelow]
    refine ⟨?_, ?_, by simp, fun hfresh hsorted => ?_, by simp, rfl⟩
    · rw [State.page_freed, State.page_setPage_self s _ hp]
    · simpa using insertFree_perm ..
    · rw [State.freeBefore_freed, State.lane_freed]
      exact pairwise_insertFree _ _ _ hfresh hsorted

/-! ### Remap entries (01 R6) -/

theorem State.entry_congr {s t : State} (h : t.remap = s.remap) (n : Nat) : t.entry n = s.entry n := by
  rw [State.entry, State.entry, h]

theorem State.entry_setEntry_self {n : Nat} (e : RemapEntry) (h : n < s.remap.length) :
    (s.setEntry n e).entry n = e := by
  simp [State.entry, h]

theorem State.entry_setEntry_of_ne {n m : Nat} (e : RemapEntry) (h : m ≠ n) :
    (s.setEntry n e).entry m = s.entry m := by
  simp [State.entry, h.symm]

/-- The entry and the page record take a verified copy. -/
def State.adopted (s : State) (page : Nat) (p : PPage) (q : Nat) : State :=
  (s.setEntry page (.mapped p q)).setPage p { s.page p with state := .mapped page }

theorem State.adopted_remap (page : Nat) (p : PPage) (q : Nat) :
    (s.adopted page p q).remap = (s.setEntry page (.mapped p q)).remap := rfl

theorem State.adopt_of_greater {page q oq : Nat} {old : PPage} (p : PPage) (h : s.entry page = .mapped old oq)
    (hq : oq < q) : s.adopt page p q = ((s.adopted page p q).release old page, some old) := by
  simp [State.adopt, State.adopted, h, hq]

theorem State.adopt_of_not_greater {page q oq : Nat} {old : PPage} (p : PPage) (h : s.entry page = .mapped old oq)
    (hq : q ≤ oq) : s.adopt page p q = (s.release p page, some p) := by
  simp [State.adopt, h, hq]

theorem State.adopt_of_not_mapped {page : Nat} (p : PPage) (q : Nat)
    (h : s.entry page = .unmapped ∨ s.entry page = .absent) : s.adopt page p q = (s.adopted page p q, none) := by
  rcases h with h | h <;> simp [State.adopt, State.adopted, h]

/-- The map after a verified copy is the map before it, or that map with the one entry set to the copy. -/
theorem State.adopt_remap_cases (page : Nat) (p : PPage) (q : Nat) :
    (s.adopt page p q).1.remap = s.remap ∨
    (s.adopt page p q).1.remap = (s.setEntry page (.mapped p q)).remap := by
  match h : s.entry page with
  | .mapped old oq =>
    rcases Nat.lt_or_ge oq q with hq | hq
    · exact .inr (by rw [s.adopt_of_greater p h hq, State.release_remap, State.adopted_remap])
    · exact .inl (by rw [s.adopt_of_not_greater p h hq, State.release_remap])
  | .unmapped => exact .inr (by rw [s.adopt_of_not_mapped p q (.inl h), State.adopted_remap])
  | .absent => exact .inr (by rw [s.adopt_of_not_mapped p q (.inr h), State.adopted_remap])

theorem State.entry_adopt_of_ne {page n : Nat} (p : PPage) (q : Nat) (h : n ≠ page) :
    (s.adopt page p q).1.entry n = s.entry n := by
  rcases s.adopt_remap_cases page p q with e | e
  · exact State.entry_congr e n
  · rw [State.entry_congr e n, State.entry_setEntry_of_ne s _ h]

/-- Settles O21, by the cases of the entry and of the two sequences. -/
theorem entryTakesGreaterSequence : Obligations.EntryTakesGreaterSequence := by
  intro s page p q hpage
  have htaken : (s.adopted page p q).entry page = .mapped p q := by
    rw [State.entry_congr (s.adopted_remap page p q), State.entry_setEntry_self s _ hpage]
  refine ⟨fun old oq h hq => ?_, fun old oq h hq => ?_, fun h => ?_, fun n hn => s.entry_adopt_of_ne p q hn⟩
  · rw [s.adopt_of_greater p h hq]
    exact ⟨(State.entry_congr (State.release_remap ..) page).trans htaken, rfl⟩
  · rw [s.adopt_of_not_greater p h hq]
    exact ⟨(State.entry_congr (s.release_remap p page) page).trans h, rfl⟩
  · rw [s.adopt_of_not_mapped p q h]
    exact ⟨htaken, rfl⟩

/-! ### The space state (01 R18, R19) -/

theorem State.recompute_of_same (h : s.spaceNow = s.space) : s.recompute = s := if_pos h

theorem State.recompute_of_change (h : s.spaceNow ≠ s.space) : s.recompute =
    (({ s with space := s.spaceNow }).give (spaceNotice s.spaceNow)).flag (·.setSpace s.spaceNow) := if_neg h

@[simp] theorem State.recompute_space : s.recompute.space = s.spaceNow := by
  by_cases h : s.spaceNow = s.space
  · rw [s.recompute_of_same h, h]
  · rw [s.recompute_of_change h]; rfl

theorem State.notices_recompute_of_change (h : s.spaceNow ≠ s.space) (hroom : s.notices.length < 32) :
    s.recompute.notices = s.notices ++ [spaceNotice s.spaceNow] := by
  rw [s.recompute_of_change h, State.flag_notices]
  exact State.notices_give_of_room _ _ hroom

theorem State.faults_recompute_of_change (h : s.spaceNow ≠ s.space) :
    ∃ f : FaultFlags, s.recompute.faults = f.setSpace s.spaceNow := by
  rw [s.recompute_of_change h]
  exact ⟨_, rfl⟩

theorem State.spent_iff : s.spent = true ↔ 0xFFFFFFFFFFFF ≤ s.seq := decide_eq_true_iff

theorem State.spaceNow_eq : s.spaceNow =
    if 0xFFFFFFFFFFFF ≤ s.seq then .exhausted
    else if s.freeTotal = 0 then .exhausted
    else if s.freeTotal ≤ s.cfg.reserveFloor then .low else .ample := by
  simp only [State.spaceNow, State.spent_iff]

/-- Settles O22, by the two branches of a recomputation: the space state stays, or it changes. -/
theorem spaceRecomputed : Obligations.SpaceRecomputed := by
  intro s
  rw [State.recompute_space]
  refine ⟨s.spaceNow_eq, s.recompute_of_same, s.notices_recompute_of_change, fun hchange hlow => ?_,
    fun hchange hexhausted => ?_⟩
  · obtain ⟨f, hf⟩ := s.faults_recompute_of_change hchange
    rw [hf, hlow]; rfl
  · obtain ⟨f, hf⟩ := s.faults_recompute_of_change hchange
    rw [hf, hexhausted]; rfl

end Sys2Proof.Machine
end

section
/-! PROOFS. One slot of the staging pool: what a merge and a fill make of its bytes, its flags and its poison. -/

namespace Sys2Proof.Machine

/-! ### Masks of codewords -/

theorem getLsbD_cwMask (f : Nat → Bool) {i : Nat} (h : i < 8) : (cwMask f).getLsbD i = f i := by
  simp [cwMask, h]

@[simp] theorem getElem_cwMask (f : Nat → Bool) {i : Nat} (h : i < 8) : (cwMask f)[i] = f i := by
  simp [cwMask]

/-- A test of a codeword's cells is a test of the eight offsets of the codeword. -/
theorem all_codeword_cells {α : Type} (cells : List (Option α)) (n : Nat) (h : 8 * n + 8 ≤ cells.length) :
    ((cells.drop (8 * n)).take 8).all Option.isSome =
      (List.range 8).all (fun j => ((cells[8 * n + j]?).join).isSome) := by
  have hslice : (cells.drop (8 * n)).take 8 = (List.range 8).map (fun j => (cells[8 * n + j]?).join) := by
    refine List.ext_getElem? fun j => ?_
    by_cases hj : j < 8
    · have hin : 8 * n + j < cells.length := by omega
      simp [hj, hin]
    · simp [hj]
  rw [hslice, List.all_map]
  rfl

/-! ### The bytes a write places (02 R29) -/

theorem length_overlay (n : Nat) (bs : List Byte) (cs : List (Option Byte)) :
    (overlay n bs cs).length = cs.length := by
  induction cs generalizing n bs with
  | nil => simp [overlay]
  | cons c cs ih =>
    cases bs with
    | nil => simp [overlay]
    | cons b bs => cases n <;> simp [overlay, ih]

theorem getElem?_overlay (n : Nat) (bs : List Byte) (cs : List (Option Byte)) {o : Nat} (h : o < cs.length) :
    (overlay n bs cs)[o]? = if n ≤ o ∧ o < n + bs.length then some bs[o - n]? else cs[o]? := by
  induction cs generalizing n bs o with
  | nil => simp at h
  | cons c cs ih =>
    cases bs with
    | nil => simp [overlay]
    | cons b bs =>
      cases n with
      | zero =>
        cases o with
        | zero => simp [overlay]
        | succ o => simp [overlay, ih 0 bs (by simpa using h)]
      | succ n =>
        cases o with
        | zero => simp [overlay]
        | succ o => simp [overlay, ih n (b :: bs) (by simpa using h)]; grind

/-- Settles O17, field by field. -/
theorem mergeRule : Obligations.MergeRule := by
  intro sl pt hlen hfit
  refine ⟨(length_overlay ..).trans hlen, fun o ho => getElem?_overlay _ _ _ (by omega), fun i hi => ?_,
    rfl, rfl, rfl, rfl, rfl, rfl, rfl⟩
  simp [Slot.merged, Part.coveredMask, hi]

/-! ### The bytes a fill takes (02 R40, R41) -/

theorem Slot.getLsbD_coveredMask (sl : Slot) {i : Nat} (h : i < 8) :
    sl.coveredMask.getLsbD i = ((sl.cells.drop (8 * i)).take 8).all Option.isSome :=
  getLsbD_cwMask _ h

theorem Slot.full_filled (sl : Slot) (src : List Byte) (p : BitVec 8) : (sl.filled src p).full = true := by
  simp only [Slot.full, Slot.filled, List.all_eq_true]
  intro c hc
  obtain ⟨i, hi, rfl⟩ := List.mem_iff_getElem.mp hc
  simp

theorem Slot.getElem?_filled (sl : Slot) (src : List Byte) (p : BitVec 8) (o : Nat) :
    (sl.filled src p).cells[o]? =
      (sl.cells[o]?).bind (fun c => (src[o]?).map (fun b => some (c.getD b))) := by
  simp only [Slot.filled, List.getElem?_zipWith]
  cases sl.cells[o]? <;> cases src[o]? <;> rfl

/-- Settles O18, field by field. -/
theorem fillRule : Obligations.FillRule := by
  intro sl src p hlen hsrc
  refine ⟨sl.full_filled src p, rfl, fun o ho => ?_, fun i hi => ?_, rfl, rfl, rfl, rfl, rfl, rfl⟩
  · rw [sl.getElem?_filled]
    have hcell : o < sl.cells.length := by omega
    have hbyte : o < src.length := by omega
    simp [hcell, hbyte]
  · rw [← all_codeword_cells _ _ (by omega), ← sl.getLsbD_coveredMask hi]
    simp [Slot.filled, hi]

/-- A fill from a clean source of a slot whose every flag is set only seals it. -/
theorem Slot.filled_of_full {sl : Slot} {src : List Byte} (hlen : sl.cells.length = src.length)
    (hfull : sl.full = true) : sl.filled src 0#8 = { sl with phase := .sealed } := by
  have hcells : List.zipWith (fun c b => some (c.getD b)) sl.cells src = sl.cells := by
    refine List.ext_getElem (by simp [hlen]) fun i hi hi' => ?_
    have hsome := List.all_eq_true.mp hfull _ (List.getElem_mem hi')
    obtain ⟨b, hb⟩ := Option.isSome_iff_exists.mp hsome
    simp [hb]
  simp [Slot.filled, hcells]

/-- A fill keeps every byte the host wrote, where its source is as long as the slot. -/
theorem Slot.filled_keeps_bytes {sl : Slot} {src : List Byte} (p : BitVec 8) (hlen : sl.cells.length = src.length)
    {i : Nat} {b : Byte} (h : sl.cells[i]? = some (some b)) : (sl.filled src p).cells[i]? = some (some b) := by
  have hi : i < src.length := hlen ▸ (List.getElem?_eq_some_iff.mp h).1
  rw [sl.getElem?_filled, h]
  simp [hi]

theorem Slot.length_filled (sl : Slot) (src : List Byte) (p : BitVec 8) :
    (sl.filled src p).cells.length = min sl.cells.length src.length := by
  simp [Slot.filled]

@[simp] theorem Slot.length_image (sl : Slot) : sl.image.length = sl.cells.length := by simp [Slot.image]

@[simp] theorem length_erasedImage : erasedImage.length = 64 := by simp [erasedImage, Config.dataBytes]

end Sys2Proof.Machine
end

section
/-! PROOFS. The slots of the pool counted and found: which slots are used, what a change of one slot leaves of every
search, and the newest slot of a page. -/

namespace Sys2Proof.Machine

variable {s t : State} {k j page : Nat} {sl : Slot} {o : Option Slot}

/-! ### A slot by its number -/

theorem State.slot_eq_some_iff : s.slot k = some sl ↔ s.slots[k]? = some (some sl) := by
  simp [State.slot, Option.join_eq_some_iff]

theorem State.slot_eq_none_of_free (h : s.slots[k]? = some none) : s.slot k = none := by
  simp [State.slot, h]

theorem State.lt_of_slot (h : s.slot k = some sl) : k < s.slots.length :=
  (List.getElem?_eq_some_iff.mp (State.slot_eq_some_iff.mp h)).1

theorem State.lt_of_free (h : s.slots[k]? = some none) : k < s.slots.length :=
  (List.getElem?_eq_some_iff.mp h).1

theorem State.slot_congr (h : t.slots = s.slots) (k : Nat) : t.slot k = s.slot k := by
  simp only [State.slot, h]

theorem State.slot_set_self (h : t.slots = s.slots.set k o) (hk : k < s.slots.length) : t.slot k = o := by
  simp [State.slot, h, hk]

theorem State.slot_set_of_ne (h : t.slots = s.slots.set k o) (hj : j ≠ k) : t.slot j = s.slot j := by
  simp [State.slot, h, hj.symm]

/-! ### The used slots -/

theorem State.mem_usedSlots {r : Nat × Slot} : r ∈ s.usedSlots ↔ s.slot r.1 = some r.2 := by
  obtain ⟨k, sl⟩ := r
  simp only [State.usedSlots, List.mem_filterMap, List.mem_zipIdx_iff_getElem?, State.slot_eq_some_iff]
  constructor
  · rintro ⟨⟨o, i⟩, hget, hmap⟩
    obtain ⟨x, rfl, hx⟩ := Option.map_eq_some_iff.mp hmap
    cases hx
    exact hget
  · exact fun h => ⟨(some sl, k), h, rfl⟩

theorem State.nodup_usedSlots (s : State) : (s.usedSlots.map (·.1)).Nodup := by
  have hsub : (s.usedSlots.map (·.1)).Sublist (s.slots.zipIdx.map Prod.snd) := by
    unfold State.usedSlots
    generalize s.slots.zipIdx = l
    induction l with
    | nil => exact .slnil
    | cons x l ih => obtain ⟨_ | sl, i⟩ := x <;> simp [ih]
  exact hsub.nodup (List.nodup_zipIdx_map_snd _)

/-- A list searched through a partial function does not see a place that the function passes over. -/
theorem filterMap_zipIdx_set {α β : Type} (f : α × Nat → Option β) (l : List α) (k n : Nat) (a : α)
    (hnew : f (a, n + k) = none) (hold : ∀ b, l[k]? = some b → f (b, n + k) = none) :
    ((l.set k a).zipIdx n).filterMap f = (l.zipIdx n).filterMap f := by
  induction l generalizing k n with
  | nil => rfl
  | cons b l ih =>
    cases k with
    | zero => simp_all
    | succ k =>
      have harith : n + 1 + k = n + (k + 1) := by omega
      simp only [List.set_cons_succ, List.zipIdx_cons, List.filterMap_cons]
      rw [ih k (n + 1) (harith ▸ hnew) (fun c hc => harith ▸ hold c (by simpa using hc))]

/-- A search for slots does not see a change of a slot that it passes over before and after. -/
theorem State.filter_usedSlots_set {p : Nat × Slot → Bool} (h : t.slots = s.slots.set k o)
    (hold : ∀ x, s.slot k = some x → p (k, x) = false) (hnew : ∀ x, o = some x → p (k, x) = false) :
    t.usedSlots.filter p = s.usedSlots.filter p := by
  simp only [State.usedSlots, List.filter_filterMap, h]
  refine filterMap_zipIdx_set _ _ _ _ _ ?_ fun b hb => ?_
  · cases o with
    | none => rfl
    | some x => simp [hnew x rfl]
  · cases b with
    | none => rfl
    | some x => simp [hold x (State.slot_eq_some_iff.mpr hb)]

theorem State.find_usedSlots_set {p : Nat × Slot → Bool} (h : t.slots = s.slots.set k o)
    (hold : ∀ x, s.slot k = some x → p (k, x) = false) (hnew : ∀ x, o = some x → p (k, x) = false) :
    t.usedSlots.find? p = s.usedSlots.find? p := by
  rw [← List.head?_filter, ← List.head?_filter, State.filter_usedSlots_set h hold hnew]

/-! ### The slots of a page -/

theorem State.mem_slotsOf {r : Nat × Slot} : r ∈ s.slotsOf page ↔ s.slot r.1 = some r.2 ∧ r.2.page = page := by
  simp [State.slotsOf, State.mem_usedSlots]

theorem State.hasSlot_iff : s.hasSlot page = true ↔ ∃ k sl, s.slot k = some sl ∧ sl.page = page := by
  simp only [State.hasSlot, List.any_eq_true, Option.any_eq_true, beq_iff_eq, State.slot_eq_some_iff]
  constructor
  · rintro ⟨o, ho, sl, rfl, hpage⟩
    obtain ⟨k, hk⟩ := List.mem_iff_getElem?.mp ho
    exact ⟨k, sl, hk, hpage⟩
  · rintro ⟨k, sl, hk, hpage⟩
    exact ⟨_, List.mem_of_getElem? hk, sl, rfl, hpage⟩

theorem State.page_ne_of_hasSlot (h : s.hasSlot page = false) (hk : s.slot k = some sl) : sl.page ≠ page := by
  intro hp
  rw [State.hasSlot_iff.mpr ⟨k, sl, hk, hp⟩] at h
  cases h

/-- Changing a slot of other pages leaves a page its slots. -/
theorem State.slotsOf_set (h : t.slots = s.slots.set k o) (hold : ∀ x, s.slot k = some x → x.page ≠ page)
    (hnew : ∀ x, o = some x → x.page ≠ page) : t.slotsOf page = s.slotsOf page :=
  State.filter_usedSlots_set h (fun x hx => by simpa using hold x hx) (fun x hx => by simpa using hnew x hx)

/-- The fold that picks the newest of a list of slots picks one of the list, and none of the list is newer. -/
theorem foldl_newerSlot (p : Nat × Slot) (ps : List (Nat × Slot)) :
    ps.foldl newerSlot p ∈ p :: ps ∧ ∀ r ∈ p :: ps, r.2.stamp ≤ (ps.foldl newerSlot p).2.stamp := by
  induction ps generalizing p with
  | nil => simp
  | cons q qs ih =>
    obtain ⟨hmem, hmax⟩ := ih (newerSlot p q)
    have hpick : newerSlot p q = p ∨ newerSlot p q = q := by unfold newerSlot; split <;> simp
    have hp : p.2.stamp ≤ (newerSlot p q).2.stamp := by unfold newerSlot; split <;> omega
    have hq : q.2.stamp ≤ (newerSlot p q).2.stamp := by unfold newerSlot; split <;> omega
    have hhead := hmax _ List.mem_cons_self
    simp only [List.foldl_cons]
    refine ⟨?_, fun r hr => ?_⟩
    · rcases List.mem_cons.mp hmem with h | h
      · rw [h]; rcases hpick with e | e <;> simp [e]
      · simp [h]
    · rcases List.mem_cons.mp hr with rfl | hr
      · omega
      · rcases List.mem_cons.mp hr with rfl | hr
        · omega
        · exact hmax r (List.mem_cons_of_mem _ hr)

theorem State.newestSlot_mem {r : Nat × Slot} (h : s.newestSlot page = some r) :
    s.slot r.1 = some r.2 ∧ r.2.page = page := by
  rw [← State.mem_slotsOf]
  unfold State.newestSlot at h
  split at h
  · cases h
  · rename_i p ps hps
    cases h
    rw [hps]
    exact (foldl_newerSlot p ps).1

theorem State.mergeTarget_spec {r : Nat × Slot} (h : s.mergeTarget page = some r) :
    s.slot r.1 = some r.2 ∧ r.2.page = page ∧ r.2.inFlight = false := by
  obtain ⟨hnewest, hflight⟩ := Option.filter_eq_some_iff.mp h
  obtain ⟨hslot, hpage⟩ := State.newestSlot_mem hnewest
  exact ⟨hslot, hpage, by simpa using hflight⟩

theorem State.mergeTarget_of_no_slot (h : s.hasSlot page = false) : s.mergeTarget page = none := by
  cases hm : s.mergeTarget page with
  | none => rfl
  | some r =>
    obtain ⟨hslot, hpage, -⟩ := State.mergeTarget_spec hm
    exact absurd hpage (State.page_ne_of_hasSlot h hslot)

theorem State.mergeTarget_set (h : t.slots = s.slots.set k o) (hold : ∀ x, s.slot k = some x → x.page ≠ page)
    (hnew : ∀ x, o = some x → x.page ≠ page) : t.mergeTarget page = s.mergeTarget page := by
  simp only [State.mergeTarget, State.newestSlot, State.slotsOf_set h hold hnew]

/-! ### FREE slots -/

theorem State.firstFree_eq_some_iff :
    s.firstFree = some k ↔ s.slots[k]? = some none ∧ ∀ j < k, s.slots[j]? ≠ some none := by
  rw [State.firstFree, List.findIdx?_eq_some_iff_getElem]
  constructor
  · rintro ⟨hk, hfree, hbefore⟩
    refine ⟨by simpa [List.getElem?_eq_getElem hk] using hfree, fun j hj hn => hbefore j hj ?_⟩
    have hjl : j < s.slots.length := by omega
    rw [List.getElem?_eq_getElem hjl, Option.some.injEq] at hn
    rw [hn]; rfl
  · rintro ⟨hfree, hbefore⟩
    obtain ⟨hk, hget⟩ := List.getElem?_eq_some_iff.mp hfree
    refine ⟨hk, by rw [hget]; rfl, fun j hj hn => hbefore j hj ?_⟩
    rw [List.getElem?_eq_getElem (by omega), Option.isNone_iff_eq_none.mp hn]

theorem State.isSome_firstFree (h : 0 < s.freeCount) : ∃ k, s.firstFree = some k := by
  obtain ⟨o, ho, hnone⟩ := List.countP_pos_iff.mp h
  exact Option.isSome_iff_exists.mp (by rw [State.firstFree, List.findIdx?_isSome]; exact List.any_of_mem ho hnone)

theorem State.freeCount_set (hfree : s.slots[k]? = some none) (h : t.slots = s.slots.set k (some sl)) :
    t.freeCount = s.freeCount - 1 := by
  obtain ⟨hk, hget⟩ := List.getElem?_eq_some_iff.mp hfree
  simp [State.freeCount, h, List.countP_set hk, hget]

theorem State.allFree_iff : s.allFree = true ↔ ∀ k, s.slot k = none := by
  simp only [State.allFree, List.all_eq_true]
  constructor
  · intro h k
    cases hk : s.slot k with
    | none => rfl
    | some sl => exact absurd (h _ (List.mem_of_getElem? (State.slot_eq_some_iff.mp hk))) (by simp)
  · intro h o ho
    obtain ⟨k, hk⟩ := List.mem_iff_getElem?.mp ho
    cases o with
    | none => rfl
    | some sl => exact absurd (h k) (by rw [State.slot_eq_some_iff.mpr hk]; simp)

/-! ### The bytes slots give a read (02 R46) -/

theorem Slot.byteAt_eq (sl : Slot) (off : Nat) :
    sl.byteAt off = ((sl.cells[off]?).join).map
      (fun b => { byte := b, poisoned := sl.poison.getLsbD (off / 8) }) := by
  unfold Slot.byteAt
  cases (sl.cells[off]?).join <;> rfl

theorem Slot.isSome_byteAt (sl : Slot) (off : Nat) : (sl.byteAt off).isSome = ((sl.cells[off]?).join).isSome := by
  rw [sl.byteAt_eq, Option.isSome_map]

/-- A byte comes from the slot whose stamp no other slot with the byte reaches. -/
theorem State.slotByte_of_newest {off : Nat} {b : Byte} (hk : s.slot k = some sl)
    (hb : (sl.cells[off]?).join = some b)
    (hnewest : ∀ r ∈ s.slotsOf sl.page, r.1 ≠ k → ((r.2.cells[off]?).join).isSome = true → r.2.stamp < sl.stamp) :
    s.slotByte sl.page off = sl.byteAt off := by
  have hmem : (k, sl) ∈ (s.slotsOf sl.page).filter (fun p => (p.2.byteAt off).isSome) := by
    simp [State.mem_slotsOf, hk, Slot.isSome_byteAt, hb]
  unfold State.slotByte
  split
  case h_1 hnil => simp [hnil] at hmem
  case h_2 p ps hps =>
    rw [hps] at hmem
    obtain ⟨hpick, hmax⟩ := foldl_newerSlot p ps
    generalize ps.foldl newerSlot p = r at hpick hmax
    obtain ⟨hof, hsome⟩ := List.mem_filter.mp (hps ▸ hpick)
    rw [Slot.isSome_byteAt] at hsome
    have hge := hmax _ hmem
    have hsame : r.1 = k := by
      by_contra hne
      exact absurd (hnewest r hof hne hsome) (by simpa using hge)
    have hslot := (State.mem_slotsOf.mp hof).1
    rw [hsame, hk, Option.some.injEq] at hslot
    rw [← hslot]

/-- Settles O33: the newest slot with the byte is the one that the fold over the page's slots picks. -/
theorem readTakesNewestByte : Obligations.ReadTakesNewestByte := by
  intro s off k
  refine ⟨fun sl hk b hb hnewest => ?_, fun page hnone => ?_⟩
  · rw [State.slotByte_of_newest hk hb hnewest, sl.byteAt_eq, hb]
    rfl
  · have hnil : (s.slotsOf page).filter (fun p => (p.2.byteAt off).isSome) = [] := by
      refine List.filter_eq_nil_iff.mpr fun r hr => ?_
      simp [Slot.isSome_byteAt, hnone r hr]
    simp [State.slotByte, hnil]

end Sys2Proof.Machine
end

section
/-! PROOFS. The commit queue, fills and seals: a slot that joins the queue while the exhaustion condition does not hold,
the source a fill takes, and what the seal of one slot does. -/

namespace Sys2Proof.Machine

variable {s t : State} {k j page : Nat} {sl : Slot}

/-! ### Joining the commit queue (02 R44) -/

theorem State.exhaustion_of_space (h : s.space ≠ .exhausted) : s.exhaustion = false := by
  simp [State.exhaustion, h]

theorem State.exhaust_of_not (h : s.exhaustion = false) : s.exhaust = s := by simp [State.exhaust, h]

theorem State.enqueueTail_of_not (h : s.exhaustion = false) (k : Nat) :
    s.enqueueTail k = { s with commitQueue := s.commitQueue ++ [k] } :=
  State.exhaust_of_not (s := { s with commitQueue := s.commitQueue ++ [k] }) h

/-- A slot put in its place and at the tail of the queue. -/
def State.joined (s : State) (k : Nat) (u : Slot) : State :=
  { s with slots := s.slots.set k (some u), commitQueue := s.commitQueue ++ [k] }

theorem State.enqueueTail_setSlot (h : s.exhaustion = false) (k : Nat) (u : Slot) :
    (s.setSlot k (some u)).enqueueTail k = s.joined k u :=
  State.enqueueTail_of_not (s := s.setSlot k (some u)) h k

theorem State.completeFill_of_slot (hk : s.slot k = some sl) (src : List Byte) (p : BitVec 8) :
    s.completeFill k src p = (s.setSlot k (some (sl.filled src p))).enqueueTail k := by
  simp only [State.completeFill, hk]

/-! ### The source of a fill (02 R38) -/

/-- The bytes and poison of a source that needs no lane. -/
def FillSource.atOnce : FillSource → Option (List Byte × BitVec 8)
  | .older x => some (x.image, x.poison)
  | .copy _ _ => Option.none
  | .erased => some (erasedImage, 0#8)
  | .none => some (erasedImage, 0xFF#8)

theorem State.olderComplete_set {o : Option Slot} (h : t.slots = s.slots.set k o)
    (hold : ∀ x, s.slot k = some x → sl.stamp ≤ x.stamp ∨ x.page ≠ sl.page)
    (hnew : ∀ x, o = some x → sl.stamp ≤ x.stamp ∨ x.page ≠ sl.page) :
    t.olderComplete sl = s.olderComplete sl := by
  have hpass : ∀ x : Slot, sl.stamp ≤ x.stamp ∨ x.page ≠ sl.page →
      (x.page == sl.page && decide (x.stamp < sl.stamp) && x.complete) = false := by
    rintro x (hx | hx)
    · simp [Nat.not_lt.mpr hx]
    · simp [hx]
  rw [State.olderComplete, State.olderComplete,
    State.find_usedSlots_set h (fun x hx => hpass x (hold x hx)) (fun x hx => hpass x (hnew x hx))]

theorem State.olderComplete_mem {x : Slot} (h : s.olderComplete sl = some x) : ∃ j, s.slot j = some x := by
  obtain ⟨r, hr, rfl⟩ := Option.map_eq_some_iff.mp h
  exact ⟨r.1, State.mem_usedSlots.mp (List.mem_of_find?_eq_some hr)⟩

theorem State.olderComplete_of_no_slot (h : s.hasSlot sl.page = false) : s.olderComplete sl = none := by
  cases hx : s.olderComplete sl with
  | none => rfl
  | some x =>
    obtain ⟨r, hr, rfl⟩ := Option.map_eq_some_iff.mp hx
    have hpage := List.find?_some hr
    simp only [Bool.and_eq_true, beq_iff_eq] at hpage
    exact absurd hpage.1.1 (State.page_ne_of_hasSlot h (State.mem_usedSlots.mp (List.mem_of_find?_eq_some hr)))

/-- The source follows the older complete slot, the entry of the page and the state of the copy's lane. -/
theorem State.fillSource_congr (hold : t.olderComplete sl = s.olderComplete sl)
    (hentry : t.entry sl.page = s.entry sl.page) (honline : ∀ l, (t.lane l).online = (s.lane l).online) :
    t.fillSource sl = s.fillSource sl := by
  simp only [State.fillSource, hold, hentry, honline]

theorem State.fillSource_setSlot {x : Slot} (hstamp : sl.stamp ≤ x.stamp)
    (hk : ∀ y, s.slot k = some y → sl.stamp ≤ y.stamp) :
    (s.setSlot k (some x)).fillSource sl = s.fillSource sl := by
  refine State.fillSource_congr (State.olderComplete_set rfl (fun y hy => .inl (hk y hy)) fun y hy => ?_) rfl
    fun l => by cases l <;> rfl
  cases hy
  exact .inl hstamp

theorem State.fillSource_of_older {x : Slot} (h : s.olderComplete sl = some x) : s.fillSource sl = .older x := by
  simp [State.fillSource, h]

theorem State.fillSource_of_unmapped (h : s.olderComplete sl = none) (he : s.entry sl.page = .unmapped) :
    s.fillSource sl = .erased := by
  simp [State.fillSource, h, he]

theorem State.copyLane_of_entry {p : PPage} {q : Nat} (he : s.entry page = .mapped p q) :
    s.copyLane page = if (s.lane p.lane).online then some p.lane else none := by
  simp [State.copyLane, he]

theorem State.fillSource_of_copyLane {l : LaneId} (h : s.olderComplete sl = none) (hl : s.copyLane sl.page = some l) :
    ∃ p q, s.fillSource sl = .copy p q ∧ p.lane = l := by
  unfold State.copyLane at hl
  split at hl
  · rename_i p q he
    split at hl
    · rename_i hon
      exact ⟨p, q, by simp [State.fillSource, h, he, hon], by simpa using hl⟩
    · cases hl
  · cases hl

theorem State.fillSource_of_no_copy (h : s.olderComplete sl = none) (he : s.entry sl.page ≠ .unmapped)
    (hl : s.copyLane sl.page = none) : s.fillSource sl = .none := by
  cases hx : s.entry sl.page with
  | unmapped => exact absurd hx he
  | absent => simp [State.fillSource, h, hx]
  | mapped p q =>
    rw [State.copyLane_of_entry hx] at hl
    simp only [State.fillSource, h, hx]
    split <;> simp_all

/-! ### The seal of one slot (02 R32) -/

/-- The slot as its seal puts it into the queue: whole as it stands, or filled from a source that needs no lane. -/
def State.sealedAs (s : State) (sl : Slot) : Option Slot :=
  if sl.full then some { sl with phase := .sealed }
  else (s.fillSource sl).atOnce.map (fun r => sl.filled r.1 r.2)

/-- A slot that waits FILLING for its FILL_READ on a lane. -/
def State.awaiting (s : State) (k : Nat) (sl : Slot) (l : LaneId) : State :=
  (s.setSlot k (some { sl with phase := .filling })).post l (.fillRead k)

theorem State.seal_of_not_open (h : (s.slot k).all (fun sl => !sl.isOpen) = true) : s.seal k = s := by
  unfold State.seal
  split
  · rfl
  · rename_i sl hk
    simp_all

theorem State.seal_of_open_sealedAs {u : Slot} (hk : s.slot k = some sl) (hopen : sl.isOpen = true)
    (hu : s.sealedAs sl = some u) : s.seal k = (s.setSlot k (some u)).enqueueTail k := by
  unfold State.sealedAs at hu
  split at hu
  case isTrue hfull =>
    cases hu
    simp [State.seal, hk, hopen, hfull]
  case isFalse hfull =>
    obtain ⟨r, hr, rfl⟩ := Option.map_eq_some_iff.mp hu
    have hsource := State.fillSource_setSlot (x := { sl with phase := .filling }) (k := k) (s := s)
      (sl := { sl with phase := .filling }) le_rfl (fun y hy => by rw [hk] at hy; cases hy; exact le_rfl)
    have hslot : (s.setSlot k (some { sl with phase := .filling })).slot k = some { sl with phase := .filling } :=
      State.slot_set_self rfl (State.lt_of_slot hk)
    have hfill : ∀ src p, (s.setSlot k (some { sl with phase := .filling })).completeFill k src p =
        (s.setSlot k (some (sl.filled src p))).enqueueTail k := fun src p => by
      rw [State.completeFill_of_slot hslot]
      simp [State.setSlot, Slot.filled, Slot.coveredMask]
    have hsame : s.fillSource { sl with phase := .filling } = s.fillSource sl := rfl
    simp only [State.seal, hk, hopen, hfull, if_true, Bool.false_eq_true, if_false, State.startFill, hslot, hsource,
      hsame]
    cases hx : s.fillSource sl <;> rw [hx] at hr <;> cases hr <;> exact hfill ..

theorem State.seal_of_copy {p : PPage} {q : Nat} (hk : s.slot k = some sl) (hopen : sl.isOpen = true)
    (hfull : sl.full = false) (hcopy : s.fillSource sl = .copy p q) : s.seal k = s.awaiting k sl p.lane := by
  have hsource := State.fillSource_setSlot (x := { sl with phase := .filling }) (k := k) (s := s)
    (sl := { sl with phase := .filling }) le_rfl (fun y hy => by rw [hk] at hy; cases hy; exact le_rfl)
  have hslot : (s.setSlot k (some { sl with phase := .filling })).slot k = some { sl with phase := .filling } :=
    State.slot_set_self rfl (State.lt_of_slot hk)
  have hsame : s.fillSource { sl with phase := .filling } = s.fillSource sl := rfl
  simp [State.seal, hk, hopen, hfull, State.startFill, hslot, hsource, hsame, hcopy, State.awaiting]

/-- Every seal leaves the state, puts the slot into the queue, or leaves it FILLING for its FILL_READ. -/
theorem State.seal_cases (s : State) (k : Nat) :
    ((s.slot k).all (fun sl => !sl.isOpen) = true ∧ s.seal k = s) ∨
    ∃ sl, s.slot k = some sl ∧ sl.isOpen = true ∧
      ((∃ u, s.sealedAs sl = some u ∧ s.seal k = (s.setSlot k (some u)).enqueueTail k) ∨
        (sl.full = false ∧ ∃ p q, s.fillSource sl = .copy p q ∧ s.seal k = s.awaiting k sl p.lane)) := by
  cases hk : s.slot k with
  | none => exact .inl ⟨rfl, State.seal_of_not_open (by rw [hk]; rfl)⟩
  | some sl =>
    cases hopen : sl.isOpen with
    | false => exact .inl ⟨by simp [hopen], State.seal_of_not_open (by simp [hk, hopen])⟩
    | true =>
      refine .inr ⟨sl, rfl, hopen, ?_⟩
      cases hu : s.sealedAs sl with
      | some u => exact .inl ⟨u, rfl, State.seal_of_open_sealedAs hk hopen hu⟩
      | none =>
        unfold State.sealedAs at hu
        split at hu
        · cases hu
        · rename_i hfull
          simp only [Bool.not_eq_true] at hfull
          cases hx : s.fillSource sl <;> rw [hx] at hu <;> cases hu
          exact .inr ⟨hfull, _, _, rfl, State.seal_of_copy hk hopen hfull hx⟩

/-- What the queue takes is SEALED, of the same page, stamp and origin, and whole. -/
theorem State.sealedAs_spec {u : Slot} (h : s.sealedAs sl = some u) :
    u.phase = .sealed ∧ u.page = sl.page ∧ u.stamp = sl.stamp ∧ u.origin = sl.origin := by
  unfold State.sealedAs at h
  split at h
  · cases h; exact ⟨rfl, rfl, rfl, rfl⟩
  · obtain ⟨r, -, rfl⟩ := Option.map_eq_some_iff.mp h
    exact ⟨rfl, rfl, rfl, rfl⟩

theorem State.sealedAs_of_full (h : sl.full = true) : s.sealedAs sl = some { sl with phase := .sealed } := by
  simp [State.sealedAs, h]

theorem State.sealedAs_of_source {src : FillSource} {r : List Byte × BitVec 8} (hfull : sl.full = false)
    (hsrc : s.fillSource sl = src) (hr : src.atOnce = some r) : s.sealedAs sl = some (sl.filled r.1 r.2) := by
  simp [State.sealedAs, hfull, hsrc, hr]

theorem State.seal_joined {u : Slot} (h : s.exhaustion = false) (hk : s.slot k = some sl) (hopen : sl.isOpen = true)
    (hu : s.sealedAs sl = some u) : s.seal k = s.joined k u := by
  rw [State.seal_of_open_sealedAs hk hopen hu, State.enqueueTail_setSlot h]

/-! ### The passing of a hold deadline (02 R34) -/

theorem settlesTo_holdTimerExpiry (hq : s.Quiet) (hk : k < 16) (hlink : (s.seal k).link = []) :
    SettlesTo (exec (.holdTimerExpiry k) s) (s.seal k) := by
  have he : exec (.holdTimerExpiry k) s = .next (s.seal k).settle := by
    have hk' : k < Config.slotCount := hk
    change execHoldTimerExpiry k s = _
    simp [execHoldTimerExpiry, hk', hq.1]
  rw [he]
  exact settlesTo_next hlink

/-- Settles O34, by the sources of a fill. -/
theorem holdExpirySeals : Obligations.HoldExpirySeals := by
  intro s k hq hk hexh
  have hstep : ∀ u, s.seal k = u → u.link = s.link → SettlesTo (exec (.holdTimerExpiry k) s) u := by
    rintro u rfl hlink
    exact settlesTo_holdTimerExpiry hq hk (hlink.trans hq.2)
  refine ⟨fun hclosed => hstep _ (State.seal_of_not_open hclosed) rfl, fun sl hsl hopen => ?_⟩
  have hjoin : ∀ u, s.sealedAs sl = some u → SettlesTo (exec (.holdTimerExpiry k) s) (s.joined k u) :=
    fun u hu => hstep _ (State.seal_joined hexh hsl hopen hu) rfl
  refine ⟨fun hfull => hjoin _ (State.sealedAs_of_full hfull), fun hfull older holder => ?_,
    fun hfull hnone hentry => ?_, fun hfull hnone hentry => ?_, fun hfull hnone p q hentry => ⟨fun hon => ?_, fun hoff => ?_⟩⟩
  · exact hjoin _ (State.sealedAs_of_source hfull (State.fillSource_of_older holder) rfl)
  · exact hjoin _ (State.sealedAs_of_source hfull (State.fillSource_of_unmapped hnone hentry) rfl)
  · refine hjoin _ (State.sealedAs_of_source hfull (State.fillSource_of_no_copy hnone ?_ ?_) rfl)
    · simp [hentry]
    · simp [State.copyLane, hentry]
  · have hcopy : s.fillSource sl = .copy p q := by simp [State.fillSource, hnone, hentry, hon]
    exact hstep _ (State.seal_of_copy hsl hopen hfull hcopy) (by cases p; rfl)
  · refine hjoin _ (State.sealedAs_of_source hfull (State.fillSource_of_no_copy hnone ?_ ?_) rfl)
    · simp [hentry]
    · simp [State.copyLane_of_entry hentry, hoff]

end Sys2Proof.Machine
end

section
/-! PROOFS. Slots that leave the pool: what the departure and the drop of a slot change, and what the exhaustion
condition makes of the whole queue. -/

namespace Sys2Proof.Machine

variable {s t u : State} {k j page : Nat} {sl : Slot}

/-! ### What a departure can change -/

theorem PoolOnly.refl (s : State) : PoolOnly s s :=
  ⟨s.slots, s.commitQueue, s.port, s.answers, s.mode, s.longCmd, s.notices, s.dropped, s.faults, s.stats, rfl⟩

theorem PoolOnly.trans (h : PoolOnly s t) (g : PoolOnly t u) : PoolOnly s u := by
  obtain ⟨_, _, _, _, _, _, _, _, _, _, rfl⟩ := h
  obtain ⟨_, _, _, _, _, _, _, _, _, _, rfl⟩ := g
  exact ⟨_, _, _, _, _, _, _, _, _, _, rfl⟩

theorem poolOnly_give (s : State) (n : Notice) : PoolOnly s (s.give n) := ⟨_, _, _, _, _, _, _, _, _, _, rfl⟩

theorem poolOnly_finishLong (s : State) (r : Nat) (p : Option Nat) : PoolOnly s (s.finishLong r p) := by
  unfold State.finishLong
  split
  · exact .refl s
  · exact ⟨_, _, _, _, _, _, _, _, _, _, rfl⟩

theorem poolOnly_reportHeld (s : State) (k : Nat) (lost : Bool) : PoolOnly s (s.reportHeld k lost) := by
  unfold State.reportHeld
  repeat' split
  all_goals exact ⟨_, _, _, _, _, _, _, _, _, _, rfl⟩

theorem poolOnly_flushCheck (s : State) (lost : Bool) : PoolOnly s (s.flushCheck lost) := by
  unfold State.flushCheck
  split
  · rename_i before _
    have hmarked : PoolOnly s { s with longCmd := some (.flush (before || lost)) } :=
      ⟨_, _, _, _, _, _, _, _, _, _, rfl⟩
    dsimp only
    split
    · exact hmarked
    · exact hmarked.trans (poolOnly_finishLong ..)
  · exact .refl s

theorem poolOnly_quiesceCheck (s : State) : PoolOnly s s.quiesceCheck := by
  unfold State.quiesceCheck
  split
  · exact poolOnly_finishLong ..
  · exact .refl s

theorem poolOnly_poolReport (s : State) : PoolOnly s s.poolReport := by
  unfold State.poolReport
  split
  · exact PoolOnly.trans (t := { s with mode := .drained }) ⟨_, _, _, _, _, _, _, _, _, _, rfl⟩
      (poolOnly_quiesceCheck _)
  · exact .refl s

/-! ### Slots, queue and port after each part of a departure -/

@[simp] theorem State.finishLong_slots (s : State) (r : Nat) (p : Option Nat) : (s.finishLong r p).slots = s.slots := by
  unfold State.finishLong; split <;> rfl

@[simp] theorem State.finishLong_queue (s : State) (r : Nat) (p : Option Nat) :
    (s.finishLong r p).commitQueue = s.commitQueue := by
  unfold State.finishLong; split <;> rfl

@[simp] theorem State.finishLong_port (s : State) (r : Nat) (p : Option Nat) : (s.finishLong r p).port = s.port := by
  unfold State.finishLong; split <;> rfl

@[simp] theorem State.finishLong_answers (s : State) (r : Nat) (p : Option Nat) :
    (s.finishLong r p).answers = s.answers := by
  unfold State.finishLong; split <;> rfl

@[simp] theorem State.finishLong_stats (s : State) (r : Nat) (p : Option Nat) : (s.finishLong r p).stats = s.stats := by
  unfold State.finishLong; split <;> rfl

@[simp] theorem State.finishLong_mode (s : State) (r : Nat) (p : Option Nat) : (s.finishLong r p).mode = s.mode := by
  unfold State.finishLong; split <;> rfl

@[simp] theorem State.finishLong_longCmd (s : State) (r : Nat) (p : Option Nat) : (s.finishLong r p).longCmd = none := by
  unfold State.finishLong
  split
  · assumption
  · rfl

theorem State.finishLong_notices {c : LongCmd} (h : s.longCmd = some c) (hroom : s.notices.length < 32) (r : Nat)
    (p : Option Nat) : (s.finishLong r p).notices = s.notices ++ [s.doneNotice c r p] := by
  simp only [State.finishLong, h]
  exact State.notices_give_of_room _ _ hroom

@[simp] theorem State.reportHeld_slots (s : State) (k : Nat) (lost : Bool) : (s.reportHeld k lost).slots = s.slots := by
  unfold State.reportHeld; repeat' split
  all_goals rfl

@[simp] theorem State.reportHeld_queue (s : State) (k : Nat) (lost : Bool) :
    (s.reportHeld k lost).commitQueue = s.commitQueue := by
  unfold State.reportHeld; repeat' split
  all_goals rfl

@[simp] theorem State.reportHeld_mode (s : State) (k : Nat) (lost : Bool) : (s.reportHeld k lost).mode = s.mode := by
  unfold State.reportHeld; repeat' split
  all_goals rfl

@[simp] theorem State.reportHeld_causes (s : State) (k : Nat) (lost : Bool) :
    (s.reportHeld k lost).causes = s.causes := by
  unfold State.reportHeld; repeat' split
  all_goals rfl

@[simp] theorem State.reportHeld_longCmd (s : State) (k : Nat) (lost : Bool) :
    (s.reportHeld k lost).longCmd = s.longCmd := by
  unfold State.reportHeld; repeat' split
  all_goals rfl

@[simp] theorem State.flushCheck_slots (s : State) (lost : Bool) : (s.flushCheck lost).slots = s.slots := by
  unfold State.flushCheck
  split
  · dsimp only; split <;> simp
  · rfl

@[simp] theorem State.flushCheck_queue (s : State) (lost : Bool) :
    (s.flushCheck lost).commitQueue = s.commitQueue := by
  unfold State.flushCheck
  split
  · dsimp only; split <;> simp
  · rfl

@[simp] theorem State.flushCheck_port (s : State) (lost : Bool) : (s.flushCheck lost).port = s.port := by
  unfold State.flushCheck
  split
  · dsimp only; split <;> simp
  · rfl

@[simp] theorem State.flushCheck_answers (s : State) (lost : Bool) : (s.flushCheck lost).answers = s.answers := by
  unfold State.flushCheck
  split
  · dsimp only; split <;> simp
  · rfl

@[simp] theorem State.flushCheck_mode (s : State) (lost : Bool) : (s.flushCheck lost).mode = s.mode := by
  unfold State.flushCheck
  split
  · dsimp only; split <;> simp
  · rfl

@[simp] theorem State.flushCheck_causes (s : State) (lost : Bool) : (s.flushCheck lost).causes = s.causes := by
  obtain ⟨_, _, _, _, _, _, _, _, _, _, h⟩ := poolOnly_flushCheck s lost
  rw [h]

@[simp] theorem State.quiesceCheck_slots (s : State) : s.quiesceCheck.slots = s.slots := by
  unfold State.quiesceCheck; split <;> simp

@[simp] theorem State.quiesceCheck_queue (s : State) : s.quiesceCheck.commitQueue = s.commitQueue := by
  unfold State.quiesceCheck; split <;> simp

@[simp] theorem State.quiesceCheck_port (s : State) : s.quiesceCheck.port = s.port := by
  unfold State.quiesceCheck; split <;> simp

@[simp] theorem State.quiesceCheck_answers (s : State) : s.quiesceCheck.answers = s.answers := by
  unfold State.quiesceCheck; split <;> simp

@[simp] theorem State.quiesceCheck_stats (s : State) : s.quiesceCheck.stats = s.stats := by
  unfold State.quiesceCheck; split <;> simp

@[simp] theorem State.quiesceCheck_mode (s : State) : s.quiesceCheck.mode = s.mode := by
  unfold State.quiesceCheck; split <;> simp

@[simp] theorem State.poolReport_slots (s : State) : s.poolReport.slots = s.slots := by
  unfold State.poolReport; split <;> simp

@[simp] theorem State.poolReport_queue (s : State) : s.poolReport.commitQueue = s.commitQueue := by
  unfold State.poolReport; split <;> simp

@[simp] theorem State.poolReport_port (s : State) : s.poolReport.port = s.port := by
  unfold State.poolReport; split <;> simp

@[simp] theorem State.poolReport_answers (s : State) : s.poolReport.answers = s.answers := by
  unfold State.poolReport; split <;> simp

theorem State.poolReport_mode (s : State) : s.poolReport.mode =
    if s.allFree = true ∧ s.mode = .draining ∧ s.causes.any = true then .drained else s.mode := by
  unfold State.poolReport; split <;> simp

/-! ### The departure of a slot (02 R45) -/

/-- The state of the port and of the long command after a departure, before the pool reports itself empty. -/
def State.leaving (s : State) (k : Nat) (sl : Slot) (how : Leave) : State :=
  let s1 := s.setSlot k none
  let s2 := if sl.owed then s1.reportHeld k (how == .lost) else s1
  if sl.flushMark then s2.flushCheck (how == .lost) else s2

theorem State.freeSlot_of_slot (hk : s.slot k = some sl) (how : Leave) :
    s.freeSlot k how = (s.leaving k sl how).poolReport := by
  simp only [State.freeSlot, hk, State.leaving]

theorem poolOnly_leaving (s : State) (k : Nat) (sl : Slot) (how : Leave) : PoolOnly s (s.leaving k sl how) := by
  have hset : PoolOnly s (s.setSlot k none) := ⟨_, _, _, _, _, _, _, _, _, _, rfl⟩
  unfold State.leaving
  refine hset.trans ?_
  dsimp only
  split <;> split
  · exact (poolOnly_reportHeld ..).trans (poolOnly_flushCheck ..)
  · exact poolOnly_flushCheck ..
  · exact poolOnly_reportHeld ..
  · exact .refl _

@[simp] theorem State.leaving_slots (s : State) (k : Nat) (sl : Slot) (how : Leave) :
    (s.leaving k sl how).slots = s.slots.set k none := by
  unfold State.leaving; dsimp only; split <;> split <;> simp [State.setSlot]

@[simp] theorem State.leaving_queue (s : State) (k : Nat) (sl : Slot) (how : Leave) :
    (s.leaving k sl how).commitQueue = s.commitQueue := by
  unfold State.leaving; dsimp only; split <;> split <;> simp [State.setSlot]

@[simp] theorem State.leaving_mode (s : State) (k : Nat) (sl : Slot) (how : Leave) :
    (s.leaving k sl how).mode = s.mode := by
  unfold State.leaving; dsimp only; split <;> split <;> simp [State.setSlot]

@[simp] theorem State.leaving_causes (s : State) (k : Nat) (sl : Slot) (how : Leave) :
    (s.leaving k sl how).causes = s.causes := by
  unfold State.leaving; dsimp only; split <;> split <;> simp [State.setSlot]

theorem poolOnly_freeSlot (s : State) (k : Nat) (how : Leave) : PoolOnly s (s.freeSlot k how) := by
  cases hk : s.slot k with
  | none => simp only [State.freeSlot, hk]; exact .refl s
  | some sl => rw [State.freeSlot_of_slot hk]; exact (poolOnly_leaving ..).trans (poolOnly_poolReport _)

@[simp] theorem State.freeSlot_queue (s : State) (k : Nat) (how : Leave) :
    (s.freeSlot k how).commitQueue = s.commitQueue := by
  cases hk : s.slot k with
  | none => simp only [State.freeSlot, hk]
  | some sl => simp [State.freeSlot_of_slot hk]

theorem State.slot_freeSlot_self (s : State) (k : Nat) (how : Leave) : (s.freeSlot k how).slot k = none := by
  cases hk : s.slot k with
  | none => simp only [State.freeSlot, hk]
  | some sl =>
    rw [State.freeSlot_of_slot hk]
    exact State.slot_set_self (by simp) (State.lt_of_slot hk)

theorem State.slot_freeSlot_of_ne (how : Leave) (h : j ≠ k) : (s.freeSlot k how).slot j = s.slot j := by
  cases hk : s.slot k with
  | none => simp only [State.freeSlot, hk]
  | some sl =>
    rw [State.freeSlot_of_slot hk]
    exact State.slot_set_of_ne (o := none) (by simp) h

theorem State.freeSlot_mode (hk : s.slot k = some sl) (how : Leave) : (s.freeSlot k how).mode =
    if (s.freeSlot k how).allFree = true ∧ s.mode = .draining ∧ s.causes.any = true then .drained else s.mode := by
  have hfree : (s.freeSlot k how).allFree = (s.leaving k sl how).allFree := by
    simp [State.freeSlot_of_slot hk, State.allFree]
  rw [hfree, State.freeSlot_of_slot hk, State.poolReport_mode]
  simp

theorem State.reportHeld_last {failed : Bool} (h : s.port = .holding [k] failed) (lost : Bool) :
    s.reportHeld k lost = s.answer (if failed || lost then .fault .commitFailed else .done) := by
  simp [State.reportHeld, h]

theorem State.reportHeld_first {failed : Bool} (h : s.port = .holding [k, j] failed) (lost : Bool) :
    s.reportHeld k lost = { s with port := .holding [j] (failed || lost) } := by
  simp [State.reportHeld, h]

/-- The port after the departure of a slot that owed the held answer is as its report leaves it. -/
theorem State.freeSlot_port_of_owed (hk : s.slot k = some sl) (howed : sl.owed = true) (how : Leave) :
    (s.freeSlot k how).port = ((s.setSlot k none).reportHeld k (how == .lost)).port ∧
    (s.freeSlot k how).answers = ((s.setSlot k none).reportHeld k (how == .lost)).answers := by
  rw [State.freeSlot_of_slot hk]
  simp only [State.poolReport_port, State.poolReport_answers, State.leaving, howed, if_true]
  split <;> simp

/-! ### Drops (05 R89, R92) -/

/-- The drop of a slot but for its departure: it has left the queue and its loss is noted. -/
def State.lossNoted (s : State) (k : Nat) (sl : Slot) (cause : Nat) (target : Option PPage) : State :=
  (({ s with commitQueue := s.commitQueue.erase k }).give (lostNotice sl cause target)).flag
    (fun f => { f with commitLost := true })

theorem State.dropSlot_of_slot (hk : s.slot k = some sl) (cause : Nat) (target : Option PPage) :
    s.dropSlot k cause target = (s.lossNoted k sl cause target).freeSlot k .lost := by
  simp only [State.dropSlot, hk, State.lossNoted]

theorem poolOnly_lossNoted (s : State) (k : Nat) (sl : Slot) (cause : Nat) (target : Option PPage) :
    PoolOnly s (s.lossNoted k sl cause target) := ⟨_, _, _, _, _, _, _, _, _, _, rfl⟩

theorem State.dropSlot_of_free (hk : s.slot k = none) (cause : Nat) (target : Option PPage) :
    s.dropSlot k cause target = { s with commitQueue := s.commitQueue.erase k } := by
  simp only [State.dropSlot, hk]

theorem poolOnly_dropSlot (s : State) (k cause : Nat) (target : Option PPage) :
    PoolOnly s (s.dropSlot k cause target) := by
  cases hk : s.slot k with
  | none => rw [State.dropSlot_of_free hk]; exact ⟨_, _, _, _, _, _, _, _, _, _, rfl⟩
  | some sl =>
    rw [State.dropSlot_of_slot hk]
    exact (poolOnly_lossNoted ..).trans (poolOnly_freeSlot ..)

theorem State.dropSlot_queue (s : State) (k cause : Nat) (target : Option PPage) :
    (s.dropSlot k cause target).commitQueue = s.commitQueue.erase k := by
  cases hk : s.slot k with
  | none => rw [State.dropSlot_of_free hk]
  | some sl =>
    rw [State.dropSlot_of_slot hk, State.freeSlot_queue]
    rfl

theorem State.slot_dropSlot_self (s : State) (k cause : Nat) (target : Option PPage) :
    (s.dropSlot k cause target).slot k = none := by
  cases hk : s.slot k with
  | none => rw [State.dropSlot_of_free hk]; exact hk
  | some sl =>
    rw [State.dropSlot_of_slot hk, State.slot_freeSlot_self]

theorem State.slot_dropSlot_of_ne (cause : Nat) (target : Option PPage) (hj : j ≠ k) :
    (s.dropSlot k cause target).slot j = s.slot j := by
  cases hk : s.slot k with
  | none => rw [State.dropSlot_of_free hk]; rfl
  | some sl =>
    rw [State.dropSlot_of_slot hk, State.slot_freeSlot_of_ne _ hj]
    rfl

/-! ### The exhaustion condition drops the whole queue (05 R92) -/

theorem PoolOnly.exhaustion (h : PoolOnly s t) : t.exhaustion = s.exhaustion := by
  obtain ⟨_, _, _, _, _, _, _, _, _, _, rfl⟩ := h
  rfl

theorem diff_self_eq_nil (l : List Nat) : l.diff l = [] := by
  induction l <;> simp_all

theorem foldl_dropSlot (ks : List Nat) (s : State) :
    let t := ks.foldl (fun v k => v.dropSlot k lostExhausted none) s
    PoolOnly s t ∧ t.commitQueue = s.commitQueue.diff ks ∧ (∀ j ∈ ks, t.slot j = none) ∧
      ∀ j, j ∉ ks → t.slot j = s.slot j := by
  induction ks generalizing s with
  | nil => exact ⟨.refl s, rfl, by simp, fun _ _ => rfl⟩
  | cons k ks ih =>
    obtain ⟨honly, hqueue, hgone, hstay⟩ := ih (s.dropSlot k lostExhausted none)
    simp only [List.foldl_cons]
    refine ⟨(poolOnly_dropSlot ..).trans honly, ?_, fun j hj => ?_, fun j hj => ?_⟩
    · rw [hqueue, State.dropSlot_queue, List.diff_cons]
    · by_cases hjs : j ∈ ks
      · exact hgone j hjs
      · obtain rfl : j = k := by simpa [hjs] using hj
        rw [hstay j hjs, State.slot_dropSlot_self]
    · simp only [List.mem_cons, not_or] at hj
      rw [hstay j hj.2, State.slot_dropSlot_of_ne _ _ hj.1]

/-- Under the exhaustion condition the queue is dropped and its slots leave the pool; no other slot changes. -/
theorem State.exhaust_of (h : s.exhaustion = true) :
    PoolOnly s s.exhaust ∧ s.exhaust.commitQueue = [] ∧ (∀ j ∈ s.commitQueue, s.exhaust.slot j = none) ∧
      ∀ j, j ∉ s.commitQueue → s.exhaust.slot j = s.slot j := by
  obtain ⟨honly, hqueue, hgone, hstay⟩ := foldl_dropSlot s.commitQueue s
  rw [State.exhaust, if_pos h]
  exact ⟨honly, hqueue.trans (diff_self_eq_nil _), hgone, hstay⟩

/-! ### Slots of the patrol unit (02 R42, R43) -/

theorem State.mayCreate_eq (s : State) (page : Nat) :
    s.mayCreate page = (!s.hasSlot page && !s.causes.any && decide (5 ≤ s.freeCount)) := rfl

/-- The pool makes the slot where its conditions hold: the lowest-numbered FREE slot takes it to the queue. -/
theorem State.createSlot_of_mayCreate (h : s.mayCreate page = true) (o : Origin) (data : List Byte) (p : BitVec 8) :
    ∃ k, s.firstFree = some k ∧ s.createSlot page o data p = some
      (({ (s.setSlot k (some (internalSlot s.nextStamp page o data p))) with
          nextStamp := s.nextStamp + 1 }).enqueueTail k) := by
  have hfloor : 5 ≤ s.freeCount := by
    rw [State.mayCreate_eq] at h
    simp only [Bool.and_eq_true, decide_eq_true_eq] at h
    exact h.2
  obtain ⟨k, hk⟩ := State.isSome_firstFree (s := s) (by omega)
  exact ⟨k, hk, by simp [State.createSlot, h, hk]⟩

theorem State.createSlot_of_not (h : s.mayCreate page = false) (o : Origin) (data : List Byte) (p : BitVec 8) :
    s.createSlot page o data p = none := by
  simp [State.createSlot, h]

/-- Settles O19, by the pool's conditions and then by the exhaustion condition. -/
theorem internalSlotCreated : Obligations.InternalSlotCreated := by
  intro s page o data p
  rw [← s.mayCreate_eq]
  cases hmay : s.mayCreate page with
  | false => simp [State.createSlot_of_not hmay]
  | true =>
    obtain ⟨k, hfree, hcreate⟩ := State.createSlot_of_mayCreate hmay o data p
    rw [hcreate]
    refine ⟨rfl, fun t ht => ?_⟩
    cases ht
    obtain ⟨hk, hlowest⟩ := State.firstFree_eq_some_iff.mp hfree
    refine ⟨k, hk, hlowest, fun hexh => ?_, fun hexh => ?_⟩
    · exact State.enqueueTail_of_not (s := { (s.setSlot k (some (internalSlot s.nextStamp page o data p))) with
        nextStamp := s.nextStamp + 1 }) hexh k
    · obtain ⟨honly, hqueue, hgone, -⟩ := State.exhaust_of (s :=
        { (s.setSlot k (some (internalSlot s.nextStamp page o data p))) with
          nextStamp := s.nextStamp + 1, commitQueue := s.commitQueue ++ [k] }) hexh
      obtain ⟨_, _, _, _, _, _, _, _, _, _, heq⟩ := honly
      refine ⟨hgone k (by simp), hqueue, ?_⟩
      exact congrArg State.nextStamp heq

end Sys2Proof.Machine
end

section
/-! PROOFS. The read-back of a fill read: the lane is released, the outcomes are counted, and the slot is filled from
the copy with the poison found. -/

namespace Sys2Proof.Machine

variable {s t : State} {k : Nat} {sl : Slot} {l : LaneId}

/-! ### A decoded read ends (07 R118) -/

theorem Reader.eq_fill {r : Reader} (h : r.fillSlot = some k) : r = .fill k := by
  cases r <;> simp_all [Reader.fillSlot]

theorem Lane.not_committing_of_readOp {x : Lane} {r : Reader × Nat × Nat × Nat} (h : x.readOp = some r) :
    x.committing = false := by
  unfold Lane.readOp at h
  split at h
  · cases h
  · split at h
    · rename_i hop
      simp [Lane.committing, hop]
    · cases h

/-- The condition follows the space state and the commits in progress. -/
theorem State.exhaustion_congr (hspace : t.space = s.space)
    (hcommit : ∀ l, (t.lane l).committing = (s.lane l).committing) : t.exhaustion = s.exhaustion := by
  have ha : t.laneA.committing = s.laneA.committing := hcommit .a
  have hb : t.laneB.committing = s.laneB.committing := hcommit .b
  simp only [State.exhaustion, hspace, ha, hb]

theorem State.exhaustion_endOp (h : (s.lane l).committing = false) : (s.endOp l).exhaustion = s.exhaustion := by
  refine State.exhaustion_congr rfl fun m => ?_
  by_cases hm : m = l
  · subst hm
    rw [h, State.endOp, State.lane_modLane]
    rfl
  · rw [State.endOp, State.lane_modLane_of_ne _ _ hm]

theorem poolOnly_readEffects (s : State) (p : PPage) (n : Nat) (d : Decoded) : PoolOnly s (s.readEffects p n d) := by
  have hcount : PoolOnly s (s.countOutcomes d) := ⟨_, _, _, _, _, _, _, _, _, _, rfl⟩
  refine hcount.trans ?_
  change PoolOnly _ (State.noteUncorrectable _ p n d)
  unfold State.noteUncorrectable
  split
  · exact ⟨_, _, _, _, _, _, _, _, _, _, rfl⟩
  · exact .refl _

theorem State.exhaustion_readEnds (h : (s.lane l).committing = false) (n i : Nat) (d : Decoded) :
    (s.readEnds l n i d).exhaustion = s.exhaustion :=
  (poolOnly_readEffects ..).exhaustion.trans (State.exhaustion_endOp h)

@[simp] theorem State.readEnds_slots (s : State) (l : LaneId) (n i : Nat) (d : Decoded) :
    (s.readEnds l n i d).slots = s.slots := by
  unfold State.readEnds State.readEffects State.noteUncorrectable
  split <;> rfl

@[simp] theorem State.readEnds_queue (s : State) (l : LaneId) (n i : Nat) (d : Decoded) :
    (s.readEnds l n i d).commitQueue = s.commitQueue := by
  unfold State.readEnds State.readEffects State.noteUncorrectable
  split <;> rfl

@[simp] theorem State.readEnds_link (s : State) (l : LaneId) (n i : Nat) (d : Decoded) :
    (s.readEnds l n i d).link = s.link := by
  unfold State.readEnds State.readEffects State.noteUncorrectable
  split <;> rfl

/-! ### The soft count of the page read (07 R121) -/

theorem State.bumpSoft_eq_softened (s : State) (p : PPage) : s.bumpSoft p = s.softened p := rfl

@[simp] theorem State.softened_slots (s : State) (p : PPage) : (s.softened p).slots = s.slots := by
  unfold State.softened; split <;> rfl

@[simp] theorem State.softened_queue (s : State) (p : PPage) : (s.softened p).commitQueue = s.commitQueue := by
  unfold State.softened; split <;> rfl

@[simp] theorem State.softened_link (s : State) (p : PPage) : (s.softened p).link = s.link := by
  unfold State.softened; split <;> rfl

theorem State.exhaustion_softened (s : State) (p : PPage) : (s.softened p).exhaustion = s.exhaustion := by
  unfold State.softened
  split
  · rfl
  · obtain ⟨m, i⟩ := p
    cases m <;> rfl

theorem Slot.not_covered_iff (sl : Slot) {i : Nat} (h : i < 8) :
    (!sl.coveredMask.getLsbD i) = ((sl.cells.drop (8 * i)).take 8).any Option.isNone := by
  rw [sl.getLsbD_coveredMask h, List.not_all_eq_any_not]
  congr 1
  funext c
  cases c <;> rfl

theorem correctedUncovered_eq (sl : Slot) (d : Decoded) : correctedUncovered sl d =
    (List.range 8).any (fun i => d.outcome i == .corrected && ((sl.cells.drop (8 * i)).take 8).any Option.isNone) := by
  unfold correctedUncovered
  rw [Bool.eq_iff_iff]
  simp only [List.any_eq_true, List.mem_range]
  refine exists_congr fun i => and_congr_right fun hi => ?_
  rw [sl.not_covered_iff hi]

/-! ### The fill -/

theorem State.completeFill_joined (h : s.exhaustion = false) (hk : s.slot k = some sl) (src : List Byte)
    (p : BitVec 8) : s.completeFill k src p = s.joined k (sl.filled src p) := by
  rw [State.completeFill_of_slot hk, State.enqueueTail_setSlot h]

theorem State.fillFromCopy_of_slot (h : s.exhaustion = false) (hk : s.slot k = some sl) (p : PPage) (d : Decoded) :
    s.fillFromCopy k p d =
      (if correctedUncovered sl d then s.softened p else s).joined k (sl.filled d.data d.poisonFound) := by
  simp only [State.fillFromCopy, hk, State.bumpSoft_eq_softened]
  refine State.completeFill_joined ?_ ?_ _ _
  · split
    · rw [State.exhaustion_softened, h]
    · exact h
  · split
    · rw [State.slot_congr (s.softened_slots p), hk]
    · exact hk

theorem exec_fillReadDone {n i q : Nat} {bytes : List Byte} (hbytes : bytes.length = 88)
    (hop : (s.lane l).readOp = some (.fill k, n, i, q)) :
    exec (.fillReadDone l bytes) s = .next (s.fillReadDone l k n i q bytes).settle := by
  have hlen : bytes.length = Config.pageBytes := hbytes
  change execFillReadDone l bytes s = _
  simp [execFillReadDone, hlen, hop]

theorem State.fillReadDone_of_discard (h : (s.lane l).discard = true) (k n i q : Nat) (bytes : List Byte) :
    s.fillReadDone l k n i q bytes = s.idled l := if_pos h

theorem State.fillReadDone_of_kept (h : (s.lane l).discard = false) (k n i q : Nat) (bytes : List Byte) :
    s.fillReadDone l k n i q bytes =
      (s.readEnds l n i (s.decode bytes n q)).fillFromCopy k { lane := l, index := i } (s.decode bytes n q) :=
  if_neg (by simp [h])

/-- Settles O43: a discarded read, then a read whose slot is filled. -/
theorem fillReadFills : Obligations.FillReadFills := by
  refine ⟨fun s l bytes hq hbytes hdiscard r hop k hk => ?_,
    fun s l bytes hq hbytes hdiscard hexh r hop k hk sl hsl => ?_⟩ <;>
  obtain ⟨reader, n, i, q⟩ := r <;>
  obtain rfl : reader = .fill k := Reader.eq_fill hk <;>
  rw [exec_fillReadDone hbytes hop]
  · rw [State.fillReadDone_of_discard hdiscard]
    exact settlesTo_next hq.2
  · rw [State.fillReadDone_of_kept hdiscard]
    dsimp only
    generalize s.decode bytes n q = d
    have hcalm : (s.readEnds l n i d).exhaustion = false := by
      rw [State.exhaustion_readEnds (Lane.not_committing_of_readOp hop), hexh]
    have hslot : (s.readEnds l n i d).slot k = some sl := by rw [State.slot_congr (s.readEnds_slots l n i d), hsl]
    rw [← correctedUncovered_eq, State.fillFromCopy_of_slot hcalm hslot]
    generalize hv : (if correctedUncovered sl d then (s.readEnds l n i d).softened _ else s.readEnds l n i d) = v
    have hkeeps : v.slots = s.slots ∧ v.commitQueue = s.commitQueue ∧ v.link = s.link := by
      subst hv
      split <;> simp
    obtain ⟨hslots, hqueue, hlink⟩ := hkeeps
    rw [← hslots, ← hqueue]
    exact settlesTo_next (hlink.trans hq.2)

end Sys2Proof.Machine
end

section
/-! PROOFS. Host writes in the pool: the parts of a write, the slots that take them, the seals that follow, and the
answer or the held answer. -/

namespace Sys2Proof.Machine

variable {s t v : State} {k j page : Nat} {sl : Slot}

/-! ### Taking a write (03 R48, R51) -/

/-- A write presented on an idle port with an empty link is taken within the step. -/
theorem settlesTo_hostWrite {addr : Nat} {data : List Byte} (hq : s.Quiet) (hport : s.port = .idle)
    (hlow : 1 ≤ data.length) (hhigh : data.length ≤ 64) :
    SettlesTo (exec (.hostWrite addr data) s) (s.takeWrite addr data) := by
  obtain ⟨halive, hlink⟩ := hq
  have hpowered : s.powered = true := by
    simp only [State.alive, Bool.and_eq_true] at halive
    exact halive.1
  have hlen : 1 ≤ data.length ∧ data.length ≤ Config.dataBytes := ⟨hlow, hhigh⟩
  have hexec : exec (.hostWrite addr data) s = .next (s.present (.write addr data)).settle := by
    change execHostWrite addr data s = _
    simp [execHostWrite, hlen, hpowered]
  have htaken : { s.present (.write addr data) with link := [] } = s := by
    rw [← hlink]
    rfl
  have hserve : (s.present (.write addr data)).serveLink = s.takeWrite addr data := by
    have htakes : (s.present (.write addr data)).portTakes = true := by
      have halive' : (s.present (.write addr data)).alive = true := halive
      simp [State.portTakes, halive', hport]
    simp only [State.serveLink, State.present_link, hlink, List.nil_append, List.foldl_cons, List.foldl_nil, htakes,
      if_true, List.tail_cons]
    rw [htaken]
    rfl
  rw [hexec, State.settle, hserve]
  exact ⟨_, rfl, settled_refresh _⟩

/-- A write that passes every check of Table 3.4 is placed. -/
theorem State.takeWrite_admitted {addr : Nat} {data : List Byte} {parts : List Part}
    (hparts : writeParts addr data = parts) (hmode : s.mode = .run) (hrange : addr + data.length ≤ 64 * s.cfg.capacity)
    (hprot : ∀ pt ∈ parts, s.writeProtected pt.page = false) (hspace : s.spaceForbids parts = false)
    (hfree : s.slotsNeeded parts ≤ s.freeCount) : s.takeWrite addr data = s.placeWrite parts := by
  have hinside : ¬ s.cfg.capacity * Config.dataBytes < addr + data.length := by
    simp only [Config.dataBytes]
    omega
  have hopen : (parts.any fun pt => s.writeProtected pt.page) = false := by simpa using hprot
  simp [State.takeWrite, hparts, hmode, hinside, hopen, hspace, Nat.not_lt.mpr hfree]

theorem writeParts_one {off : Nat} {data : List Byte} (hlow : 1 ≤ data.length) (hfit : off + data.length ≤ 64) :
    writeParts (64 * page + off) data = [{ page := page, off := off, data := data }] := by
  have hoff : (64 * page + off) % 64 = off := by omega
  have hpage : (64 * page + off) / 64 = page := by omega
  have hall : data.take (64 - off) = data := List.take_of_length_le (by omega)
  simp [writeParts, Config.dataBytes, hoff, hpage, hfit, hall]

theorem writeParts_two {off : Nat} {data : List Byte} (hoff : off < 64) (hover : 64 < off + data.length) :
    writeParts (64 * page + off) data =
      [{ page := page, off := off, data := data.take (64 - off) },
        { page := page + 1, off := 0, data := data.drop (64 - off) }] := by
  have hmod : (64 * page + off) % 64 = off := by omega
  have hpage : (64 * page + off) / 64 = page := by omega
  simp [writeParts, Config.dataBytes, hmod, hpage, Nat.not_le.mpr hover]

theorem State.spaceForbids_eq_false {parts : List Part}
    (h : s.space = .ample ∨ (s.space = .low ∧ ∀ pt ∈ parts, s.needsFirstCopy pt.page = false)) :
    s.spaceForbids parts = false := by
  rcases h with h | ⟨h, hfirst⟩
  · simp [State.spaceForbids, h]
  · simpa [State.spaceForbids, h] using hfirst

theorem State.needsFirstCopy_of_mergeTarget {r : Nat × Slot} (h : s.mergeTarget page = some r) :
    s.needsFirstCopy page = false := by
  obtain ⟨hslot, hpage, -⟩ := State.mergeTarget_spec h
  simp [State.needsFirstCopy, State.hasSlot_iff.mpr ⟨r.1, r.2, hslot, hpage⟩]

theorem State.slotsNeeded_le (s : State) (parts : List Part) : s.slotsNeeded parts ≤ parts.length :=
  List.countP_le_length

/-! ### The slot that takes a part (02 R27 to R30) -/

theorem overlay_blank (off : Nat) (data : List Byte) (n : Nat) (h : off + data.length ≤ n) :
    overlay off data (List.replicate n none) =
      List.replicate off none ++ data.map some ++ List.replicate (n - off - data.length) none := by
  refine List.ext_getElem? fun o => ?_
  by_cases ho : o < n
  · rw [getElem?_overlay _ _ _ (by simpa using ho)]
    grind
  · rw [List.getElem?_eq_none (by simp [length_overlay]; omega), List.getElem?_eq_none (by simp; omega)]

/-- The slot opened for a part, with its bytes merged. -/
def State.openedFor (s : State) (pt : Part) : Slot := (openedSlot s.nextStamp pt.page s.cfg.holdTime).merged pt

theorem State.openedFor_eq (s : State) {pt : Part} (h : pt.off + pt.data.length ≤ 64) : s.openedFor pt =
    { phase := .opened s.cfg.holdTime, stamp := s.nextStamp, page := pt.page, origin := .host
      cells := List.replicate pt.off none ++ pt.data.map some ++ List.replicate (64 - pt.off - pt.data.length) none
      poison := 0, attempts := 0, flushMark := false, owed := false } := by
  have hcells := overlay_blank pt.off pt.data 64 h
  have hpoison : (0 : BitVec 8) &&& ~~~ pt.coveredMask = 0 := BitVec.zero_and
  simp only [State.openedFor, Slot.merged, openedSlot, Config.dataBytes, hcells, hpoison]

theorem State.takes_of_merge {r : Nat × Slot} {pt : Part} (h : s.mergeTarget pt.page = some r) :
    s.takes pt = some (r.1, r.2.merged pt) := by
  simp [State.takes, h]

theorem State.takes_of_open {pt : Part} (h : s.mergeTarget pt.page = none) (hk : s.firstFree = some k)
    (hfit : pt.off + pt.data.length ≤ 64) : s.takes pt = some (k, s.openedFor pt) := by
  simp [State.takes, h, hk, s.openedFor_eq hfit]

/-- The slot that takes a part is a slot of the pool and holds the part's page. -/
theorem State.takes_spec {r : Nat × Slot} {pt : Part} (h : s.takes pt = some r) (hfit : pt.off + pt.data.length ≤ 64) :
    r.1 < s.slots.length ∧ r.2.page = pt.page ∧ ∀ x, s.slot r.1 = some x → x.page = pt.page := by
  cases hm : s.mergeTarget pt.page with
  | some q =>
    obtain ⟨hslot, hpage, -⟩ := State.mergeTarget_spec hm
    rw [State.takes_of_merge hm] at h
    cases h
    refine ⟨State.lt_of_slot hslot, hpage, fun x hx => ?_⟩
    rw [hslot] at hx
    cases hx
    exact hpage
  | none =>
    cases hk : s.firstFree with
    | none => simp [State.takes, hm, hk] at h
    | some k =>
      rw [State.takes_of_open hm hk hfit] at h
      cases h
      have hfree := (State.firstFree_eq_some_iff.mp hk).1
      exact ⟨State.lt_of_free hfree, rfl, fun x hx => absurd hx (by simp [State.slot_eq_none_of_free hfree])⟩

theorem State.placing_slots {r : Nat × Slot} {pt : Part} (h : s.takes pt = some r) :
    (s.placing pt).slots = s.slots.set r.1 (some r.2) := by
  simp [State.placing, h]

theorem State.placing_of_merge {r : Nat × Slot} {pt : Part} (h : s.mergeTarget pt.page = some r) :
    s.placing pt = s.setSlot r.1 (some (r.2.merged pt)) := by
  simp [State.placing, State.takes_of_merge h, h, State.setSlot]

theorem State.placing_of_open {pt : Part} (h : s.mergeTarget pt.page = none) (hk : s.firstFree = some k)
    (hfit : pt.off + pt.data.length ≤ 64) :
    s.placing pt = { (s.setSlot k (some (s.openedFor pt))) with nextStamp := s.nextStamp + 1 } := by
  simp [State.placing, State.takes_of_open h hk hfit, h, State.setSlot]

/-- Placing a part changes the slots and the next creation stamp. -/
theorem State.placing_only (s : State) (pt : Part) :
    ∃ slots stamp, s.placing pt = { s with slots := slots, nextStamp := stamp } := by
  unfold State.placing
  split
  · exact ⟨s.slots, s.nextStamp, rfl⟩
  · exact ⟨_, _, rfl⟩

theorem State.lateMergeEnd_of_idle (hk : s.slot k = some sl)
    (h : sl.phase ≠ .filling ∨ sl.full = false ∨ s.fillGranted k = true) : s.lateMergeEnd k = s := by
  simp only [State.lateMergeEnd, hk]
  refine if_neg fun hend => ?_
  obtain ⟨hphase, hfull, hgranted⟩ := hend
  simp_all

theorem State.placePart_of_merge {r : Nat × Slot} {pt : Part} (h : s.mergeTarget pt.page = some r) :
    s.placePart pt = ((s.placing pt).lateMergeEnd r.1, [{ slot := r.1, opened := false, freeLeft := s.freeCount }]) := by
  simp only [State.placePart, h, State.placing_of_merge h]

theorem State.placePart_of_open {pt : Part} (h : s.mergeTarget pt.page = none) (hk : s.firstFree = some k)
    (hfit : pt.off + pt.data.length ≤ 64) :
    s.placePart pt = (s.placing pt, [{ slot := k, opened := true, freeLeft := s.freeCount - 1 }]) := by
  simp only [State.placePart, h, hk, State.placing_of_open h hk hfit, State.openedFor]

/-- What the placing of a part that ends no fill did. -/
def State.placed (s : State) (pt : Part) (r : Nat × Slot) : Placed :=
  { slot := r.1, opened := (s.mergeTarget pt.page).isNone
    freeLeft := if (s.mergeTarget pt.page).isNone then s.freeCount - 1 else s.freeCount }

theorem State.placePart_of_takes {r : Nat × Slot} {pt : Part} (h : s.takes pt = some r)
    (hfit : pt.off + pt.data.length ≤ 64) (hidle : r.2.phase ≠ .filling ∨ r.2.full = false) :
    s.placePart pt = (s.placing pt, [s.placed pt r]) := by
  cases hm : s.mergeTarget pt.page with
  | some q =>
    rw [State.takes_of_merge hm] at h
    cases h
    have hslot : (s.placing pt).slot q.1 = some (q.2.merged pt) := by
      rw [State.placing_of_merge hm]
      exact State.slot_set_self rfl (State.lt_of_slot (State.mergeTarget_spec hm).1)
    rw [State.placePart_of_merge hm, State.lateMergeEnd_of_idle hslot (hidle.imp_right .inl)]
    simp [State.placed, hm]
  | none =>
    cases hk : s.firstFree with
    | none => simp [State.takes, hm, hk] at h
    | some k =>
      rw [State.takes_of_open hm hk hfit] at h
      cases h
      rw [State.placePart_of_open hm hk hfit]
      simp [State.placed, hm]

theorem State.placeParts_one (s : State) (pt : Part) : s.placeParts [pt] = s.placePart pt := by
  simp [State.placeParts]

/-! ### Slots in ascending order of creation stamp (02 R32) -/

theorem insertByStamp_perm (p : Nat × Slot) (l : List (Nat × Slot)) : (insertByStamp p l).Perm (p :: l) := by
  induction l with
  | nil => exact .refl _
  | cons q qs ih =>
    unfold insertByStamp
    split
    · exact .refl _
    · exact (ih.cons q).trans (.swap ..)

theorem sortByStamp_perm (l : List (Nat × Slot)) : (sortByStamp l).Perm l := by
  induction l with
  | nil => exact .refl _
  | cons p l ih => exact (insertByStamp_perm p _).trans (ih.cons p)

theorem insertByStamp_sorted (p : Nat × Slot) {l : List (Nat × Slot)}
    (h : l.Pairwise fun x y => x.2.stamp ≤ y.2.stamp) :
    (insertByStamp p l).Pairwise fun x y => x.2.stamp ≤ y.2.stamp := by
  induction l with
  | nil => simp [insertByStamp]
  | cons q qs ih =>
    obtain ⟨hq, hqs⟩ := List.pairwise_cons.mp h
    unfold insertByStamp
    split
    case isTrue hlt =>
      refine List.pairwise_cons.mpr ⟨fun x hx => ?_, h⟩
      rcases List.mem_cons.mp hx with rfl | hx
      · omega
      · have := hq x hx
        omega
    case isFalse hge =>
      refine List.pairwise_cons.mpr ⟨fun x hx => ?_, ih hqs⟩
      rcases List.mem_cons.mp ((insertByStamp_perm p qs).mem_iff.mp hx) with rfl | hx
      · omega
      · exact hq x hx

theorem sortByStamp_sorted (l : List (Nat × Slot)) :
    (sortByStamp l).Pairwise fun x y => x.2.stamp ≤ y.2.stamp := by
  induction l with
  | nil => exact .nil
  | cons p l ih => exact insertByStamp_sorted p ih

theorem State.byStamp_one (hk : s.slot k = some sl) : s.byStamp [k] = [k] := by
  simp [State.byStamp, hk, sortByStamp, insertByStamp]

theorem State.byStamp_two {x y : Slot} (hk : s.slot k = some x) (hj : s.slot j = some y) :
    s.byStamp [k, j] = if x.stamp < y.stamp then [k, j] else [j, k] := by
  simp only [State.byStamp, List.filterMap_cons, hk, hj, Option.map_some, List.filterMap_nil, sortByStamp,
    List.foldr_cons, List.foldr_nil, insertByStamp]
  split <;> rfl

/-! ### Seals while the exhaustion condition does not hold -/

@[simp] theorem State.exhaustion_setSlot (s : State) (k : Nat) (o : Option Slot) :
    (s.setSlot k o).exhaustion = s.exhaustion := rfl

@[simp] theorem State.exhaustion_joined (s : State) (k : Nat) (u : Slot) :
    (s.joined k u).exhaustion = s.exhaustion := rfl

@[simp] theorem State.exhaustion_withdrawBoth (s : State) (c : Claim) :
    (s.withdrawBoth c).exhaustion = s.exhaustion := rfl

@[simp] theorem State.exhaustion_wrote (s : State) (m : Bool) : (s.wrote m).exhaustion = s.exhaustion := rfl

@[simp] theorem State.joined_port (s : State) (k : Nat) (u : Slot) : (s.joined k u).port = s.port := rfl

@[simp] theorem State.withdrawBoth_port (s : State) (c : Claim) : (s.withdrawBoth c).port = s.port := rfl

@[simp] theorem State.withdrawBoth_slots (s : State) (c : Claim) : (s.withdrawBoth c).slots = s.slots := rfl

@[simp] theorem State.slot_wrote (s : State) (m : Bool) (k : Nat) : (s.wrote m).slot k = s.slot k := rfl

theorem State.slot_joined (h : k < s.slots.length) (u : Slot) : (s.joined k u).slot k = some u :=
  State.slot_set_self rfl h

theorem State.exhaustion_awaiting (s : State) (k : Nat) (sl : Slot) (l : LaneId) :
    (s.awaiting k sl l).exhaustion = s.exhaustion := by cases l <;> rfl

theorem State.exhaustion_seal (h : s.exhaustion = false) (k : Nat) : (s.seal k).exhaustion = false := by
  obtain ⟨-, e⟩ | ⟨sl, hk, hopen, ⟨u, hu, -⟩ | ⟨hfull, p, q, hcopy, e⟩⟩ := s.seal_cases k
  · rw [e, h]
  · rw [State.seal_joined h hk hopen hu]
    exact h
  · rw [e, State.exhaustion_awaiting, h]

theorem State.seal_slot_not_open (h : s.exhaustion = false) (k : Nat) :
    ((s.seal k).slot k).all (fun sl => !sl.isOpen) = true := by
  obtain ⟨hclosed, e⟩ | ⟨sl, hk, hopen, ⟨u, hu, -⟩ | ⟨hfull, p, q, hcopy, e⟩⟩ := s.seal_cases k
  · rw [e, hclosed]
  · rw [State.seal_joined h hk hopen hu, State.slot_set_self (s := s) rfl (State.lt_of_slot hk)]
    simp [Slot.isOpen, (State.sealedAs_spec hu).1]
  · rw [e, State.slot_set_self (s := s) rfl (State.lt_of_slot hk)]
    rfl

theorem State.seal_seal (h : s.exhaustion = false) (k : Nat) : (s.seal k).seal k = s.seal k :=
  State.seal_of_not_open (State.seal_slot_not_open h k)

/-- A seal and an answer of the port do not touch each other. -/
theorem State.seal_answer (h : s.exhaustion = false) (k : Nat) (a : HostAnswer) :
    (s.seal k).answer a = (s.answer a).seal k := by
  obtain ⟨hclosed, e⟩ | ⟨sl, hk, hopen, ⟨u, hu, -⟩ | ⟨hfull, p, q, hcopy, e⟩⟩ := s.seal_cases k
  · rw [e, State.seal_of_not_open (s := s.answer a) hclosed]
  · rw [State.seal_joined h hk hopen hu, State.seal_joined (s := s.answer a) h hk hopen hu]
    rfl
  · rw [e, State.seal_of_copy (s := s.answer a) hk hopen hfull hcopy]
    obtain ⟨l, i⟩ := p
    cases l <;> rfl

theorem State.exhaustion_sealEach (h : s.exhaustion = false) (ks : List Nat) : (s.sealEach ks).exhaustion = false := by
  induction ks generalizing s with
  | nil => exact h
  | cons k ks ih => exact ih (State.exhaustion_seal h k)

theorem State.sealEach_answer (h : s.exhaustion = false) (ks : List Nat) (a : HostAnswer) :
    (s.sealEach ks).answer a = (s.answer a).sealEach ks := by
  induction ks generalizing s with
  | nil => rfl
  | cons k ks ih =>
    refine (ih (State.exhaustion_seal h k)).trans ?_
    rw [State.seal_answer h]
    rfl

theorem State.sealOldest_eq (s : State) : s.sealOldest = s.sealEach (s.openSlots.take 1) := by
  unfold State.sealOldest
  cases s.openSlots <;> rfl

theorem State.foldl_sealOldest_answer {α : Type} (h : s.exhaustion = false) (l : List α) (a : HostAnswer) :
    (l.foldl (fun t _ => t.sealOldest) s).answer a = l.foldl (fun t _ => t.sealOldest) (s.answer a) := by
  induction l generalizing s with
  | nil => rfl
  | cons x l ih =>
    simp only [List.foldl_cons]
    rw [s.sealOldest_eq, ih (State.exhaustion_sealEach h _), State.sealEach_answer h, State.sealOldest_eq]
    rfl

/-! ### The seals of a write (02 R28) -/

/-- The slots a write seals but for the pressure seals, in order: full mask, SYNC, a hold time of 0 (log 11). -/
def State.sealOrder (s : State) (placed : List Placed) (sync : Bool) : List Nat :=
  let touched := s.byStamp (placed.map (·.slot))
  touched.filter (fun k => (s.slot k).any Slot.full) ++ (if sync then touched else []) ++
    (if s.cfg.holdTime = 0 then s.byStamp ((placed.filter (·.opened)).map (·.slot)) else [])

theorem State.writeSeals_eq (s : State) (placed : List Placed) (sync : Bool) : s.writeSeals placed sync =
    (placed.filter (fun p => p.opened && decide (p.freeLeft < 4))).foldl (fun t _ => t.sealOldest)
      (s.sealEach (s.sealOrder placed sync)) := by
  unfold State.writeSeals State.sealOrder State.sealFull State.sealEach
  dsimp only
  cases sync <;> split <;> simp [Config.pressureLevel, List.foldl_append] <;> rfl

theorem State.writeSeals_answer (h : s.exhaustion = false) (placed : List Placed) (sync : Bool) (a : HostAnswer) :
    (s.writeSeals placed sync).answer a = (s.answer a).writeSeals placed sync := by
  rw [State.writeSeals_eq, State.writeSeals_eq, State.foldl_sealOldest_answer (State.exhaustion_sealEach h _),
    State.sealEach_answer h]
  rfl

/-- Sealing one slot again and again is sealing it once. -/
theorem State.sealEach_same (h : s.exhaustion = false) (ks : List Nat) (hks : ∀ j ∈ ks, j = k) :
    s.sealEach ks = if ks = [] then s else s.seal k := by
  induction ks generalizing s with
  | nil => rfl
  | cons j ks ih =>
    obtain ⟨rfl, hrest⟩ := List.forall_mem_cons.mp hks
    rw [if_neg (by simp)]
    refine (ih (State.exhaustion_seal h j) hrest).trans ?_
    split
    · rfl
    · exact State.seal_seal h j

theorem State.mem_sealOrder_one {p : Placed} (hk : s.slot p.slot = some sl) (sync : Bool) (j : Nat) :
    j ∈ s.sealOrder [p] sync ↔
      j = p.slot ∧ (sl.full = true ∨ sync = true ∨ (p.opened = true ∧ s.cfg.holdTime = 0)) := by
  have hone : s.byStamp [p.slot] = [p.slot] := State.byStamp_one hk
  have hopened : s.byStamp (([p].filter (·.opened)).map (·.slot)) = if p.opened then [p.slot] else [] := by
    cases hp : p.opened <;> simp [hp, hone]
    rfl
  simp only [State.sealOrder, List.map_cons, List.map_nil, hone, hopened, List.mem_append, List.mem_filter,
    List.mem_singleton]
  constructor
  · rintro ((⟨rfl, hfull⟩ | hsync) | hhold)
    · exact ⟨rfl, .inl (by simpa [hk] using hfull)⟩
    · split at hsync <;> simp_all
    · split at hhold
      · split at hhold <;> simp_all
      · cases hhold
  · rintro ⟨rfl, hfull | rfl | ⟨hp, hhold⟩⟩
    · exact .inl (.inl ⟨rfl, by simpa [hk] using hfull⟩)
    · simp
    · simp [hp, hhold]

/-- Without a pressure seal, a write of one part seals its slot where it is full, where the write is SYNC, or where the
slot is new and the hold time is 0. -/
theorem State.writeSeals_one {p : Placed} (h : s.exhaustion = false) (hk : s.slot p.slot = some sl)
    (hroom : p.opened = true → 4 ≤ p.freeLeft) (sync : Bool) : s.writeSeals [p] sync =
      if sl.full = true ∨ sync = true ∨ (p.opened = true ∧ s.cfg.holdTime = 0) then s.seal p.slot else s := by
  have hnone : [p].filter (fun p => p.opened && decide (p.freeLeft < 4)) = [] := by
    refine List.filter_eq_nil_iff.mpr fun q hq => ?_
    obtain rfl := List.mem_singleton.mp hq
    simpa using hroom
  have hmem := State.mem_sealOrder_one hk sync
  rw [State.writeSeals_eq, hnone, List.foldl_nil, State.sealEach_same h _ fun j hj => ((hmem j).mp hj).1]
  simp only [List.eq_nil_iff_forall_not_mem, hmem, not_and, forall_eq]
  split <;> simp_all

/-! ### Answer and count (02 R27, 03 R55) -/

theorem State.answer_countWrite (h : s.port = .idle) (placed : List Placed) :
    (s.countWrite placed).answer .done = s.wrote (placed.any fun p => !p.opened) := by
  simp [State.countWrite, State.answer, State.wrote, ← h]

/-- A POSTED write is answered DONE; then come the seals. -/
theorem State.placeWrite_posted {parts : List Part} {placed : List Placed} (hplace : s.placeParts parts = (v, placed))
    (hposted : ∀ pt ∈ parts, s.commitMode pt.page = .posted) (hexh : v.exhaustion = false) (hport : v.port = .idle) :
    s.placeWrite parts = (v.wrote (placed.any fun p => !p.opened)).writeSeals placed false := by
  have hsync : s.isSync parts = false := by
    simp only [State.isSync, List.any_eq_false]
    intro pt hpt
    simp [hposted pt hpt]
  simp only [State.placeWrite, hplace, hsync, Bool.false_eq_true, if_false]
  rw [State.writeSeals_answer (s := v.countWrite placed) hexh, State.answer_countWrite hport]

/-- A SYNC write holds its answer for the slots that took it; then come the seals. -/
theorem State.placeWrite_sync {parts : List Part} {placed : List Placed} (hplace : s.placeParts parts = (v, placed))
    (hsync : ∃ pt ∈ parts, s.commitMode pt.page = .sync) :
    s.placeWrite parts = ((v.countWrite placed).hold (placed.map (·.slot))).writeSeals placed true := by
  have hany : s.isSync parts = true := by
    obtain ⟨pt, hpt, hmode⟩ := hsync
    exact List.any_eq_true.mpr ⟨pt, hpt, by simp [hmode]⟩
  simp only [State.placeWrite, hplace, hany, if_true]

/-! ### Merges (02 R29, R30, R33, R41) -/

theorem State.withdrawBoth_eq (s : State) (c : Claim) : s.withdrawBoth c =
    { s with
      laneA := { s.laneA with claims := s.laneA.claims.filter (fun d => d != c) }
      laneB := { s.laneB with claims := s.laneB.claims.filter (fun d => d != c) } } := rfl

theorem State.lateMergeEnd_of_full (h : s.exhaustion = false) (hk : s.slot k = some sl) (hphase : sl.phase = .filling)
    (hfull : sl.full = true) (hgranted : s.fillGranted k = false) (hlen : sl.cells.length = 64) :
    s.lateMergeEnd k = (s.withdrawBoth (.fillRead k)).joined k { sl with phase := .sealed } := by
  have hk' : (s.withdrawBoth (.fillRead k)).slot k = some sl := hk
  simp only [State.lateMergeEnd, hk, hphase, hfull, hgranted, and_self, if_true]
  rw [State.completeFill_joined (s := s.withdrawBoth (.fillRead k)) h hk',
    Slot.filled_of_full (hlen.trans length_erasedImage.symm) hfull]

/-- What the seals of a POSTED write of one part make of the slot they find. -/
theorem settlesTo_postedWrite {addr : Nat} {data : List Byte} {pt : Part} {p : Placed} {m : Bool} (hq : s.Quiet) (hport : s.port = .idle)
    (hmode : s.mode = .run) (hlow : 1 ≤ data.length) (hhigh : data.length ≤ 64) (hparts : writeParts addr data = [pt])
    (hrange : addr + data.length ≤ 64 * s.cfg.capacity) (hprot : s.writeProtected pt.page = false)
    (hspace : s.space = .ample ∨ (s.space = .low ∧ s.needsFirstCopy pt.page = false))
    (hposted : s.commitMode pt.page = .posted) (hfree : s.slotsNeeded [pt] ≤ s.freeCount)
    (hplace : s.placePart pt = (v, [p])) (hexh : v.exhaustion = false) (hidle : v.port = .idle)
    (hm : (!p.opened) = m) : SettlesTo (exec (.hostWrite addr data) s) ((v.wrote m).writeSeals [p] false) := by
  have hadmitted := State.takeWrite_admitted hparts hmode hrange (by simpa using hprot)
    (State.spaceForbids_eq_false (by simpa using hspace)) hfree
  have hplaced := State.placeWrite_posted ((s.placeParts_one pt).trans hplace) (by simpa using hposted) hexh hidle
  have hstep := settlesTo_hostWrite (addr := addr) hq hport hlow hhigh
  rw [hadmitted, hplaced] at hstep
  simpa [hm] using hstep

/-- A POSTED write of a part merged into the page's newest slot: the merge, and the seal where it fills the mask. -/
theorem settlesTo_merge {off : Nat} {data : List Byte} {r : Nat × Slot} {x : Slot} (hq : s.Quiet) (hport : s.port = .idle)
    (hmode : s.mode = .run) (hlow : 1 ≤ data.length) (hfit : off + data.length ≤ 64) (hpage : page < s.cfg.capacity)
    (hprot : s.writeProtected page = false) (hposted : s.commitMode page = .posted) (hspace : s.space ≠ .exhausted)
    (hr : s.mergeTarget page = some r)
    (hmerge : (s.setSlot r.1 (some (r.2.merged { page := page, off := off, data := data }))).lateMergeEnd r.1 = v)
    (hexh : v.exhaustion = false) (hidle : v.port = .idle) (hx : v.slot r.1 = some x) :
    SettlesTo (exec (.hostWrite (64 * page + off) data) s)
      (if x.full = true then (v.wrote true).seal r.1 else v.wrote true) := by
  have hspace' : s.space = .ample ∨ (s.space = .low ∧ s.needsFirstCopy page = false) := by
    cases hs : s.space with
    | ample => exact .inl rfl
    | low => exact .inr ⟨rfl, State.needsFirstCopy_of_mergeTarget hr⟩
    | exhausted => exact absurd hs hspace
  have hneed : s.slotsNeeded [{ page := page, off := off, data := data }] = 0 := by
    simp [State.slotsNeeded, hr]
  have hplace := State.placePart_of_merge (pt := { page := page, off := off, data := data }) hr
  rw [State.placing_of_merge (pt := { page := page, off := off, data := data }) hr, hmerge] at hplace
  have hstep := settlesTo_postedWrite (m := true) hq hport hmode hlow (by omega) (writeParts_one hlow hfit) (by omega)
    hprot hspace' hposted (by omega) hplace hexh hidle rfl
  rw [State.writeSeals_one (s := v.wrote true) (p := { slot := r.1, opened := false, freeLeft := s.freeCount })
    hexh hx (by simp)] at hstep
  simpa using hstep

/-- Settles O30, by the phase of the slot that takes the bytes. -/
theorem writeMerges : Obligations.WriteMerges := by
  intro s page off data hq hport hmode hlow hfit hpage hprot hposted hspace r hr hlen sl done
  have hexh := State.exhaustion_of_space hspace
  have hlt := State.lt_of_slot (State.mergeTarget_spec hr).1
  have hat : (s.setSlot r.1 (some sl)).slot r.1 = some sl := State.slot_set_self rfl hlt
  have hstep := fun (v : State) (x : Slot) => settlesTo_merge (v := v) (x := x) hq hport hmode hlow hfit hpage hprot
    hposted hspace hr
  have hidle := fun h => hstep _ sl (State.lateMergeEnd_of_idle hat h) hexh hport hat
  refine ⟨fun hcase => ?_, fun hfull hopen => ?_, fun hfull hphase hgranted => ?_⟩
  · have hclosed : sl.full = false ∨ sl.isOpen = false := by
      rcases hcase with h | h | ⟨h, -⟩
      · exact .inl h
      · exact .inr (by simp [Slot.isOpen, h])
      · exact .inr (by simp [Slot.isOpen, h])
    have hsettles := hidle (by
      rcases hcase with h | h | ⟨-, h⟩
      · exact .inr (.inl h)
      · exact .inl (by simp [h])
      · exact .inr (.inr h))
    split at hsettles
    case isTrue hfull =>
      rw [State.seal_of_not_open] at hsettles
      · simpa only [done, State.setSlot, State.wrote] using hsettles
      · have hat' : ((s.setSlot r.1 (some sl)).wrote true).slot r.1 = some sl := hat
        have hopen : sl.isOpen = false := hclosed.resolve_left (by rw [hfull]; simp)
        rw [hat', Option.all_some, hopen]
        rfl
    case isFalse => simpa only [done, State.setSlot, State.wrote] using hsettles
  · have hphase : sl.phase ≠ .filling := fun h => by simp [Slot.isOpen, h] at hopen
    have hsettles := hidle (.inl hphase)
    rw [if_pos hfull, State.seal_joined (s := (s.setSlot r.1 (some sl)).wrote true) hexh hat hopen
      (State.sealedAs_of_full hfull)] at hsettles
    simpa only [done, State.joined, State.setSlot, State.wrote, List.set_set] using hsettles
  · have hend := State.lateMergeEnd_of_full (s := s.setSlot r.1 (some sl)) hexh hat hphase hfull hgranted
      ((length_overlay ..).trans hlen)
    have hat' : (((s.setSlot r.1 (some sl)).withdrawBoth (.fillRead r.1)).joined r.1 { sl with phase := .sealed }).slot
        r.1 = some { sl with phase := .sealed } := State.slot_joined (by simpa using hlt) _
    have hsettles := hstep _ _ hend (by simpa using hexh) (by simpa using hport) hat'
    have hfull' : ({ sl with phase := .sealed } : Slot).full = true := hfull
    rw [if_pos hfull', State.seal_of_not_open (by rw [State.slot_wrote, hat']; rfl)] at hsettles
    simpa only [done, State.joined, State.setSlot, State.wrote, State.withdrawBoth_eq, List.set_set] using hsettles

end Sys2Proof.Machine
end

section
/-! PROOFS. Host writes that open a slot, and POSTED writes over two pages. -/

namespace Sys2Proof.Machine

variable {s t v : State} {k j page : Nat} {sl : Slot}

/-! ### The seals of several slots -/

/-- The pressure seal goes to the OPEN slot with the least stamp (02 R35). -/
theorem State.sealOldest_of_oldest (hj : s.slot j = some sl) (hopen : sl.isOpen = true)
    (holdest : ∀ r ∈ s.usedSlots, r.1 ≠ j → r.2.isOpen = true → sl.stamp < r.2.stamp) :
    s.sealOldest = s.seal j := by
  have hmem : (j, sl) ∈ sortByStamp (s.usedSlots.filter fun p => p.2.isOpen) :=
    (sortByStamp_perm _).mem_iff.mpr (by simp [State.mem_usedSlots, hj, hopen])
  have hsorted := sortByStamp_sorted (s.usedSlots.filter fun p => p.2.isOpen)
  have hof : ∀ r ∈ sortByStamp (s.usedSlots.filter fun p => p.2.isOpen), r ∈ s.usedSlots ∧ r.2.isOpen = true :=
    fun r hr => List.mem_filter.mp ((sortByStamp_perm _).mem_iff.mp hr)
  unfold State.sealOldest State.openSlots
  cases hl : sortByStamp (s.usedSlots.filter fun p => p.2.isOpen) with
  | nil => simp [hl] at hmem
  | cons r rs =>
    rw [hl] at hmem hsorted hof
    obtain ⟨hused, hropen⟩ := hof r List.mem_cons_self
    have hle : r.2.stamp ≤ sl.stamp := by
      rcases List.mem_cons.mp hmem with rfl | hin
      · exact le_rfl
      · exact (List.pairwise_cons.mp hsorted).1 _ hin
    have hfirst : r.1 = j := by
      by_contra hne
      exact absurd (holdest r hused hne hropen) (Nat.not_lt.mpr hle)
    simp only [List.map_cons, hfirst]

theorem State.sealEach_of_not_open (ks : List Nat) (h : ∀ k ∈ ks, (s.slot k).all (fun sl => !sl.isOpen) = true) :
    s.sealEach ks = s := by
  induction ks with
  | nil => rfl
  | cons k ks ih =>
    obtain ⟨hk, hks⟩ := List.forall_mem_cons.mp h
    exact (congrArg (fun t => State.sealEach t ks) (State.seal_of_not_open hk)).trans (ih hks)

/-- The slots of a pool with several whole slots sealed. -/
def sealWhole (slots : List (Option Slot)) (rs : List (Nat × Slot)) : List (Option Slot) :=
  rs.foldl (fun ss r => ss.set r.1 (some { r.2 with phase := .sealed })) slots

/-- Whole slots sealed in an order: those that were OPEN join the queue in that order, the others stay. -/
theorem State.sealEach_full (h : s.exhaustion = false) (rs : List (Nat × Slot))
    (hrs : ∀ r ∈ rs, s.slot r.1 = some r.2 ∧ r.2.full = true) (hnodup : (rs.map (·.1)).Nodup) :
    s.sealEach (rs.map (·.1)) =
      { s with
        slots := sealWhole s.slots (rs.filter (·.2.isOpen))
        commitQueue := s.commitQueue ++ (rs.filter (·.2.isOpen)).map (·.1) } := by
  induction rs generalizing s with
  | nil => simp [State.sealEach, sealWhole]
  | cons r rs ih =>
    obtain ⟨⟨hslot, hfull⟩, hrest⟩ := List.forall_mem_cons.mp hrs
    obtain ⟨hnew, hnodup'⟩ := List.nodup_cons.mp hnodup
    change (s.seal r.1).sealEach (rs.map (·.1)) = _
    cases hopen : r.2.isOpen with
    | false =>
      rw [State.seal_of_not_open (by simp [hslot, hopen]), ih h hrest hnodup']
      simp [hopen]
    | true =>
      rw [State.seal_joined h hslot hopen (State.sealedAs_of_full hfull)]
      rw [ih (by simpa using h) (fun q hq => ⟨?_, (hrest q hq).2⟩) hnodup']
      · simp [hopen, State.joined, sealWhole]
      · have hne : q.1 ≠ r.1 := fun heq => hnew (List.mem_map.mpr ⟨q, hq, heq⟩)
        exact (State.slot_set_of_ne (s := s) rfl hne).trans (hrest q hq).1

/-! ### A POSTED write that opens a slot (02 R28, R33 to R35) -/

theorem State.openedFor_full_iff (s : State) {pt : Part} (hfit : pt.off + pt.data.length ≤ 64) :
    (s.openedFor pt).full = true ↔ pt.data.length = 64 := by
  simp only [s.openedFor_eq hfit, Slot.full, List.all_append, List.all_replicate, List.all_map, Bool.and_eq_true]
  constructor
  · rintro ⟨⟨hbefore, -⟩, hafter⟩
    simp at hbefore hafter
    omega
  · intro hlen
    have hoff : pt.off = 0 := by omega
    simp [hoff, hlen]

/-- What the seal of the slot just opened makes of it, with the source that the pool gives it. -/
theorem State.seal_opened {u : State} {x : Slot} (hcalm : u.exhaustion = false)
    (hslots : u.slots = s.slots.set k (some sl)) (hk : k < s.slots.length) (hopen : sl.isOpen = true)
    (hx : u.sealedAs sl = some x) :
    u.seal k = { u with slots := s.slots.set k (some x), commitQueue := u.commitQueue ++ [k] } := by
  rw [State.seal_joined hcalm (State.slot_set_self hslots hk) hopen hx]
  simp only [State.joined, hslots, List.set_set]

/-- The state with a slot opened for a part and the write answered DONE. -/
def State.openedIn (s : State) (k : Nat) (pt : Part) : State :=
  { (s.wrote false) with slots := s.slots.set k (some (s.openedFor pt)), nextStamp := s.nextStamp + 1 }

section OpensOne

variable {off : Nat} {data : List Byte} (hq : s.Quiet) (hport : s.port = .idle) (hmode : s.mode = .run)
  (hlow : 1 ≤ data.length) (hfit : off + data.length ≤ 64) (hpage : page < s.cfg.capacity)
  (hprot : s.writeProtected page = false) (hposted : s.commitMode page = .posted)
  (hspace : s.space = .ample ∨ (s.space = .low ∧ s.needsFirstCopy page = false))
  (hm : s.mergeTarget page = none) (hfree : s.slots[k]? = some none) (hlowest : ∀ j < k, s.slots[j]? ≠ some none)

include hspace in
theorem State.openedIn_calm (k : Nat) (pt : Part) : (s.openedIn k pt).exhaustion = false := by
  refine State.exhaustion_of_space ?_
  rcases hspace with h | ⟨h, -⟩ <;> simp [State.openedIn, State.wrote, h]

include hfree in
theorem State.openedIn_slot (pt : Part) : (s.openedIn k pt).slot k = some (s.openedFor pt) :=
  State.slot_set_self (s := s) rfl (State.lt_of_free hfree)

include hfree in
/-- The slot just opened finds the older complete slots that its page had before. -/
theorem State.olderComplete_openedIn (pt : Part) :
    (s.openedIn k pt).olderComplete (s.openedFor pt) = s.olderComplete (s.openedFor pt) := by
  refine State.olderComplete_set (s := s) (k := k) (o := some (s.openedFor pt)) rfl (fun x hx => ?_) fun x hx => ?_
  · rw [State.slot_eq_none_of_free hfree] at hx
    cases hx
  · cases hx
    exact .inl le_rfl

include hq hport hmode hlow hfit hpage hprot hposted hspace hm hfree hlowest

/-- A POSTED write of one page that opens a slot: the slot is opened, the write answered, and then come the seals. -/
theorem settlesTo_open : SettlesTo (exec (.hostWrite (64 * page + off) data) s)
    ((s.openedIn k { page := page, off := off, data := data }).writeSeals
      [{ slot := k, opened := true, freeLeft := s.freeCount - 1 }] false) := by
  have hk : s.firstFree = some k := State.firstFree_eq_some_iff.mpr ⟨hfree, hlowest⟩
  have hcount : 0 < s.freeCount := List.countP_pos_iff.mpr ⟨none, List.mem_of_getElem? hfree, rfl⟩
  have hplace := State.placePart_of_open (pt := { page := page, off := off, data := data }) hm hk hfit
  rw [State.placing_of_open (pt := { page := page, off := off, data := data }) hm hk hfit] at hplace
  have hspace' : s.space ≠ .exhausted := by
    rcases hspace with h | ⟨h, -⟩ <;> simp [h]
  have hneed := s.slotsNeeded_le [{ page := page, off := off, data := data }]
  have hstep := settlesTo_postedWrite (m := false) hq hport hmode hlow (by omega) (writeParts_one hlow hfit) (by omega)
    hprot hspace hposted (by simp at hneed; omega) hplace (State.exhaustion_of_space hspace') hport rfl
  simpa only [State.openedIn, State.wrote, State.setSlot] using hstep

/-- With room left, the slot is sealed at once where the write fills it or the hold time is 0. -/
theorem settlesTo_open_roomy (hroom : 5 ≤ s.freeCount) : SettlesTo (exec (.hostWrite (64 * page + off) data) s)
    (if data.length = 64 ∨ s.cfg.holdTime = 0 then (s.openedIn k { page := page, off := off, data := data }).seal k
      else s.openedIn k { page := page, off := off, data := data }) := by
  have hstep := settlesTo_open hq hport hmode hlow hfit hpage hprot hposted hspace hm hfree hlowest
  rw [State.writeSeals_one (State.openedIn_calm hspace k _) (State.openedIn_slot hfree _)
    (fun _ => by simp only; omega)] at hstep
  simpa [s.openedFor_full_iff (pt := { page := page, off := off, data := data }) hfit, State.openedIn, State.wrote]
    using hstep

/-- An allocation that leaves fewer than four FREE slots seals the oldest OPEN slot. -/
theorem settlesTo_open_pressed (hroom : s.freeCount < 5) (hshort : data.length < 64) (hhold : s.cfg.holdTime ≠ 0) :
    SettlesTo (exec (.hostWrite (64 * page + off) data) s)
      (s.openedIn k { page := page, off := off, data := data }).sealOldest := by
  have hstep := settlesTo_open hq hport hmode hlow hfit hpage hprot hposted hspace hm hfree hlowest
  have horder : (s.openedIn k { page := page, off := off, data := data }).sealOrder
      [{ slot := k, opened := true, freeLeft := s.freeCount - 1 }] false = [] := by
    refine List.eq_nil_iff_forall_not_mem.mpr fun j hj => ?_
    obtain ⟨-, hcause⟩ := (State.mem_sealOrder_one (State.openedIn_slot hfree _) false j).mp hj
    rw [s.openedFor_full_iff hfit] at hcause
    rcases hcause with h | h | ⟨-, h⟩
    · exact absurd h (Nat.ne_of_lt hshort)
    · cases h
    · exact hhold h
  have hpressed : s.freeCount - 1 < 4 := by omega
  rw [State.writeSeals_eq, horder] at hstep
  simpa [hpressed, State.sealEach] using hstep

/-- The slot sealed at once stands in the queue where no lane is needed for it. -/
theorem settlesTo_open_joined {x : Slot} (hroom : 5 ≤ s.freeCount) (hcause : data.length = 64 ∨ s.cfg.holdTime = 0)
    (hx : (s.openedIn k { page := page, off := off, data := data }).sealedAs
      (s.openedFor { page := page, off := off, data := data }) = some x) :
    SettlesTo (exec (.hostWrite (64 * page + off) data) s)
      { (s.openedIn k { page := page, off := off, data := data }) with
        slots := s.slots.set k (some x), commitQueue := s.commitQueue ++ [k] } := by
  have hstep := settlesTo_open_roomy hq hport hmode hlow hfit hpage hprot hposted hspace hm hfree hlowest hroom
  rw [if_pos hcause, State.seal_opened (State.openedIn_calm hspace k _) rfl (State.lt_of_free hfree) rfl hx] at hstep
  exact hstep

/-- The slot sealed at once waits for its FILL_READ where its source is a copy. -/
theorem settlesTo_open_awaiting {p : PPage} {q : Nat} (hroom : 5 ≤ s.freeCount) (hshort : data.length < 64)
    (hhold : s.cfg.holdTime = 0)
    (hcopy : (s.openedIn k { page := page, off := off, data := data }).fillSource
      (s.openedFor { page := page, off := off, data := data }) = .copy p q) :
    SettlesTo (exec (.hostWrite (64 * page + off) data) s)
      { ((s.openedIn k { page := page, off := off, data := data }).post p.lane (.fillRead k)) with
        slots := s.slots.set k
          (some { (s.openedFor { page := page, off := off, data := data }) with phase := .filling }) } := by
  have hpartly : (s.openedFor { page := page, off := off, data := data }).full = false := by
    rw [← Bool.not_eq_true, s.openedFor_full_iff hfit]
    exact Nat.ne_of_lt hshort
  have hstep := settlesTo_open_roomy hq hport hmode hlow hfit hpage hprot hposted hspace hm hfree hlowest hroom
  rw [if_pos (.inr hhold), State.seal_of_copy (State.openedIn_slot hfree _) rfl hpartly hcopy] at hstep
  simpa only [State.awaiting, State.openedIn, State.setSlot, State.post, State.modLane, State.setLane, State.lane,
    List.set_set] using hstep

end OpensOne

/-! ### A POSTED write over two pages (02 R27, R33) -/

theorem State.freeCount_set_ge {o : Option Slot} (h : t.slots = s.slots.set k o) : s.freeCount - 1 ≤ t.freeCount := by
  by_cases hk : k < s.slots.length
  · simp only [State.freeCount, h, List.countP_set hk]
    split <;> split <;> omega
  · simp [State.freeCount, h, List.set_eq_of_length_le (Nat.le_of_not_lt hk)]

/-- Parts placed one after another in two slots. -/
theorem State.placing_two {lower upper : Part} {a b : Nat × Slot} (ha : s.takes lower = some a)
    (hb : (s.placing lower).takes upper = some b) (hlower : lower.off + lower.data.length ≤ 64)
    (hupper : upper.off + upper.data.length ≤ 64) (hpages : lower.page ≠ upper.page) :
    a.1 ≠ b.1 ∧ ((s.placing lower).placing upper).slot a.1 = some a.2 ∧
      ((s.placing lower).placing upper).slot b.1 = some b.2 ∧
      (s.placing lower).mergeTarget upper.page = s.mergeTarget upper.page := by
  obtain ⟨halt, hapage, hawas⟩ := State.takes_spec ha hlower
  obtain ⟨hblt, -, hbwas⟩ := State.takes_spec hb hupper
  have hplaced : (s.placing lower).slot a.1 = some a.2 := State.slot_set_self (State.placing_slots ha) halt
  have hne : a.1 ≠ b.1 := fun heq => hpages (hapage.symm.trans (hbwas _ (heq ▸ hplaced)))
  refine ⟨hne, ?_, State.slot_set_self (State.placing_slots hb) hblt, ?_⟩
  · rw [State.slot_set_of_ne (State.placing_slots hb) hne, hplaced]
  · refine State.mergeTarget_set (State.placing_slots ha) (fun x hx => ?_) fun x hx => ?_
    · rw [hawas x hx]
      exact hpages
    · cases hx
      rw [hapage]
      exact hpages

/-- The seals of a POSTED write of two parts with room and a hold time: the full mask of OPEN slots, by stamp. -/
theorem State.writeSeals_two {p q : Placed} {x y : Slot} (hcalm : s.exhaustion = false) (hp : s.slot p.slot = some x)
    (hq : s.slot q.slot = some y) (hne : p.slot ≠ q.slot) (hroomp : 4 ≤ p.freeLeft) (hroomq : 4 ≤ q.freeLeft)
    (hhold : s.cfg.holdTime ≠ 0) :
    let sealing := (if x.stamp < y.stamp then [(p.slot, x), (q.slot, y)] else [(q.slot, y), (p.slot, x)]).filter
      (fun r => r.2.full && r.2.isOpen)
    s.writeSeals [p, q] false =
      { s with slots := sealWhole s.slots sealing, commitQueue := s.commitQueue ++ sealing.map (·.1) } := by
  intro sealing
  have hnone : [p, q].filter (fun p => p.opened && decide (p.freeLeft < 4)) = [] := by
    simp [Nat.not_lt.mpr hroomp, Nat.not_lt.mpr hroomq]
  let rs := (if x.stamp < y.stamp then [(p.slot, x), (q.slot, y)] else [(q.slot, y), (p.slot, x)]).filter
    (fun r => r.2.full)
  have hof : ∀ r ∈ rs, s.slot r.1 = some r.2 ∧ r.2.full = true := by
    intro r hr
    obtain ⟨hin, hfull⟩ := List.mem_filter.mp hr
    refine ⟨?_, hfull⟩
    have hmem : r = (p.slot, x) ∨ r = (q.slot, y) := by
      split at hin <;> simp at hin <;> tauto
    rcases hmem with rfl | rfl <;> assumption
  have horder : s.sealOrder [p, q] false = rs.map (·.1) := by
    simp only [State.sealOrder, List.map_cons, List.map_nil, State.byStamp_two hp hq, hhold, Bool.false_eq_true,
      if_false, List.append_nil, rs]
    split <;> simp [List.filter_cons, hp, hq] <;> split <;> split <;> simp_all
  have hnodup : (rs.map (·.1)).Nodup := by
    refine List.Nodup.sublist (List.Sublist.map _ List.filter_sublist) ?_
    split <;> simp [hne, hne.symm]
  have hsealing : rs.filter (·.2.isOpen) = sealing := by
    simp only [rs, sealing, List.filter_filter, Bool.and_comm]
  rw [State.writeSeals_eq, hnone, List.foldl_nil, horder, State.sealEach_full hcalm rs hof hnodup, hsealing]

/-- A POSTED write over two pages, with room and a hold time, that ends no fill. -/
theorem settlesTo_postedTwo {off : Nat} {data : List Byte} {a b : Nat × Slot} (hq : s.Quiet) (hport : s.port = .idle)
    (hmode : s.mode = .run) (hoff : off < 64) (hover : 64 < off + data.length) (hhigh : data.length ≤ 64)
    (hpage : page + 1 < s.cfg.capacity) (hprot : s.writeProtected page = false)
    (hprot' : s.writeProtected (page + 1) = false) (hposted : s.commitMode page = .posted)
    (hposted' : s.commitMode (page + 1) = .posted)
    (hspace : s.space = .ample ∨
      (s.space = .low ∧ s.needsFirstCopy page = false ∧ s.needsFirstCopy (page + 1) = false))
    (hroom : 6 ≤ s.freeCount) (hhold : s.cfg.holdTime ≠ 0) {lower upper : Part}
    (hlower : lower = { page := page, off := off, data := data.take (64 - off) })
    (hupper : upper = { page := page + 1, off := 0, data := data.drop (64 - off) })
    (ha : s.takes lower = some a) (hb : (s.placing lower).takes upper = some b)
    (hidle : a.2.phase ≠ .filling ∨ a.2.full = false) (hidle' : b.2.phase ≠ .filling ∨ b.2.full = false) :
    let u := (s.placing lower).placing upper
    let sealing := (if a.2.stamp < b.2.stamp then [a, b] else [b, a]).filter (fun r => r.2.full && r.2.isOpen)
    SettlesTo (exec (.hostWrite (64 * page + off) data) s)
      { (u.wrote ((s.mergeTarget page).isSome || (s.mergeTarget (page + 1)).isSome)) with
        slots := sealWhole u.slots sealing
        commitQueue := s.commitQueue ++ sealing.map (·.1) } := by
  intro u sealing
  have hfit : lower.off + lower.data.length ≤ 64 := by
    rw [hlower]
    simp only [List.length_take]
    omega
  have hfit' : upper.off + upper.data.length ≤ 64 := by
    rw [hupper]
    simp only [List.length_drop]
    omega
  have hlow : lower.page = page := by rw [hlower]
  have hhighPage : upper.page = page + 1 := by rw [hupper]
  have hpages : lower.page ≠ upper.page := by simp [hlow, hhighPage]
  obtain ⟨hne, hata, hatb, hmerge⟩ := State.placing_two ha hb hfit hfit' hpages
  rw [hhighPage] at hmerge
  change u.slot a.1 = some a.2 at hata
  change u.slot b.1 = some b.2 at hatb
  have hplace : s.placeParts [lower, upper] = (u, [s.placed lower a, (s.placing lower).placed upper b]) := by
    simp [State.placeParts, State.placePart_of_takes ha hfit hidle, State.placePart_of_takes hb hfit' hidle', u]
  have hspace' : s.space ≠ .exhausted := by
    rcases hspace with h | ⟨h, -⟩ <;> simp [h]
  obtain ⟨slots, stamp, hu⟩ : ∃ slots stamp, u = { s with slots := slots, nextStamp := stamp } := by
    obtain ⟨_, _, h⟩ := s.placing_only lower
    obtain ⟨_, _, h'⟩ := (s.placing lower).placing_only upper
    exact ⟨_, _, h'.trans (by rw [h])⟩
  have hcalm : u.exhaustion = false := hu ▸ State.exhaustion_of_space hspace'
  have hmerged : ([s.placed lower a, (s.placing lower).placed upper b].any fun p => !p.opened) =
      ((s.mergeTarget page).isSome || (s.mergeTarget (page + 1)).isSome) := by
    simp [State.placed, hmerge, hlow, hhighPage]
  have hneed := s.slotsNeeded_le [lower, upper]
  have hadmitted := State.takeWrite_admitted (addr := 64 * page + off) (data := data) (parts := [lower, upper])
    (by rw [writeParts_two hoff hover, hlower, hupper]) hmode (by omega) (by simp [hlower, hupper, hprot, hprot'])
    (State.spaceForbids_eq_false (by simpa [hlower, hupper] using hspace)) (by simp at hneed; omega)
  have hplaced := State.placeWrite_posted hplace (by simp [hlower, hupper, hposted, hposted']) hcalm
    (by rw [hu]; exact hport)
  have hstep := settlesTo_hostWrite (addr := 64 * page + off) hq hport (by omega) hhigh
  have hleft : s.freeCount - 1 ≤ (s.placing lower).freeCount := State.freeCount_set_ge (State.placing_slots ha)
  have hleft' : 4 ≤ (s.placed lower a).freeLeft := by
    simp only [State.placed]
    split <;> omega
  have hleft'' : 4 ≤ ((s.placing lower).placed upper b).freeLeft := by
    simp only [State.placed]
    split <;> omega
  have hqueue : u.commitQueue = s.commitQueue := by rw [hu]
  have hholds : u.cfg.holdTime ≠ 0 := by rw [hu]; exact hhold
  rw [hadmitted, hplaced, hmerged] at hstep
  clear_value u
  generalize ((s.mergeTarget page).isSome || (s.mergeTarget (page + 1)).isSome) = merged at hstep ⊢
  have hseals := State.writeSeals_two (s := u.wrote merged) (p := s.placed lower a)
    (q := (s.placing lower).placed upper b) hcalm hata hatb hne hleft' hleft'' hholds
  rw [hseals] at hstep
  have hsame : (u.wrote merged).commitQueue = s.commitQueue := hqueue
  rw [hsame] at hstep
  exact hstep

/-- Settles O29: a write of one page by the hold time and the source, then a write over two pages. -/
theorem writeOpensSlot : Obligations.WriteOpensSlot := by
  refine ⟨fun s page off k data hq hport hmode hlow hfit hpage hprot hposted hspace hm hfree hlowest => ?_, ?_⟩
  · intro sl u o
    obtain ⟨hsl, hu⟩ : sl = s.openedFor { page := page, off := off, data := data } ∧
        u = s.openedIn k { page := page, off := off, data := data } := by
      have hsl := (s.openedFor_eq (pt := { page := page, off := off, data := data }) hfit).symm
      exact ⟨hsl, by simp only [State.openedIn, ← hsl, u, sl]⟩
    have hfull := s.openedFor_full_iff (pt := { page := page, off := off, data := data }) hfit
    have hwhole : data.length = 64 → sl.cells = data.map some := fun hlen => by
      have hoff : off = 0 := by omega
      simp [sl, hoff, hlen]
    clear_value sl u
    subst hsl hu
    have hpartly : data.length < 64 → (s.openedFor { page := page, off := off, data := data }).full = false :=
      fun hshort => by
        rw [← Bool.not_eq_true, hfull]
        exact Nat.ne_of_lt hshort
    have holder := State.olderComplete_openedIn hfree { page := page, off := off, data := data }
    have hroomy := settlesTo_open_roomy hq hport hmode hlow hfit hpage hprot hposted hspace hm hfree hlowest
    have hjoin := fun x => settlesTo_open_joined (x := x) hq hport hmode hlow hfit hpage hprot hposted hspace hm hfree
      hlowest
    refine ⟨fun hroom => ⟨fun hshort hhold => ?_, fun hlen => ?_, fun hshort hhold => ⟨?_, ?_, ?_, ?_⟩⟩,
      fun hcrowded hshort hhold j oldest hj hopen hmin => ?_⟩
    · simpa [Nat.ne_of_lt hshort, hhold] using hroomy hroom
    · rw [← hwhole hlen]
      exact hjoin _ hroom (.inl hlen) (State.sealedAs_of_full (hfull.mpr hlen))
    · intro older hx
      exact hjoin _ hroom (.inr hhold) (State.sealedAs_of_source (hpartly hshort)
        (State.fillSource_of_older (holder.trans hx)) rfl)
    · intro hx hentry
      exact hjoin _ hroom (.inr hhold) (State.sealedAs_of_source (hpartly hshort)
        (State.fillSource_of_unmapped (holder.trans hx) hentry) rfl)
    · intro hx hentry l hl
      obtain ⟨p, q, hcopy, rfl⟩ := State.fillSource_of_copyLane
        (s := s.openedIn k { page := page, off := off, data := data }) (holder.trans hx) hl
      exact settlesTo_open_awaiting hq hport hmode hlow hfit hpage hprot hposted hspace hm hfree hlowest hroom hshort hhold
        hcopy
    · intro hx hentry hl
      exact hjoin _ hroom (.inr hhold) (State.sealedAs_of_source (hpartly hshort)
        (State.fillSource_of_no_copy (holder.trans hx) hentry hl) rfl)
    · rw [← State.sealOldest_of_oldest hj hopen hmin]
      exact settlesTo_open_pressed hq hport hmode hlow hfit hpage hprot hposted hspace hm hfree hlowest hcrowded hshort hhold
  · intro s page off data hq hport hmode hoff hover hhigh hpage hprot hprot' hposted hposted' hspace hroom hhold lower upper
      a ha b hb hidle hidle'
    exact settlesTo_postedTwo hq hport hmode hoff hover hhigh hpage hprot hprot' hposted hposted' hspace hroom hhold rfl rfl
      ha hb hidle hidle'

end Sys2Proof.Machine
end

section
/-! PROOFS. SYNC writes: the slots are sealed at once and owe the answer, which their departure gives. -/

namespace Sys2Proof.Machine

variable {s t v : State} {k j page : Nat} {sl : Slot}

/-! ### Slots filled with erased bytes -/

theorem Slot.filled_erased_cells (hlen : sl.cells.length = 64) (p : BitVec 8) :
    (sl.filled erasedImage p).cells = sl.cells.map (fun c => some (c.getD 0xFF#8)) := by
  refine List.ext_getElem? fun i => ?_
  rw [sl.getElem?_filled, List.getElem?_map]
  by_cases hi : i < 64
  · have hcell : i < sl.cells.length := by omega
    have hbyte : erasedImage[i]? = some 0xFF#8 := by
      simp only [erasedImage, List.getElem?_replicate, Config.dataBytes, hi, if_true]
      rfl
    simp [hbyte, hcell]
  · simp [List.getElem?_eq_none (l := sl.cells) (i := i) (by omega)]

/-- A slot of an UNMAPPED page without an older complete slot is sealed with erased bytes for those it does not hold. -/
theorem State.sealedAs_of_unmapped (hlen : sl.cells.length = 64) (hnone : s.olderComplete sl = none)
    (hentry : s.entry sl.page = .unmapped) : s.sealedAs sl = some (sl.filled erasedImage 0#8) := by
  cases hfull : sl.full with
  | true => rw [State.sealedAs_of_full hfull, Slot.filled_of_full (by simpa using hlen) hfull]
  | false => exact State.sealedAs_of_source hfull (State.fillSource_of_unmapped hnone hentry) rfl

theorem State.seal_unmapped (hcalm : s.exhaustion = false) (hk : s.slot k = some sl) (hopen : sl.isOpen = true)
    (hlen : sl.cells.length = 64) (hnone : s.olderComplete sl = none) (hentry : s.entry sl.page = .unmapped) :
    s.seal k = s.joined k (sl.filled erasedImage 0#8) :=
  State.seal_joined hcalm hk hopen (State.sealedAs_of_unmapped hlen hnone hentry)

/-- The whole slot that a SYNC write of an UNMAPPED page leaves in the queue. -/
def wholeSync (stamp page : Nat) (cells : List (Option Byte)) : Slot :=
  { phase := .sealed, stamp := stamp, page := page, origin := .host, cells := cells, poison := 0, attempts := 0
    flushMark := false, owed := true }

/-- The slot opened for a part of a SYNC write, which owes the answer. -/
def State.owingFor (s : State) (pt : Part) : Slot := { s.openedFor pt with owed := true }

theorem State.length_owingFor (s : State) (pt : Part) : (s.owingFor pt).cells.length = 64 := by
  simp [State.owingFor, State.openedFor, Slot.merged, openedSlot, length_overlay, Config.dataBytes]

theorem State.filled_owingFor (s : State) {pt : Part} (hfit : pt.off + pt.data.length ≤ 64) :
    (s.owingFor pt).filled erasedImage 0#8 = wholeSync s.nextStamp pt.page
      (List.replicate pt.off (some 0xFF#8) ++ pt.data.map some ++
        List.replicate (64 - pt.off - pt.data.length) (some 0xFF#8)) := by
  have hcells := Slot.filled_erased_cells (s.length_owingFor pt) 0#8
  have hpoison : (s.owingFor pt).poison ||| (0#8 &&& ~~~ (s.owingFor pt).coveredMask) = 0#8 := by
    simp [State.owingFor, s.openedFor_eq hfit]
  have hfilled : (s.owingFor pt).filled erasedImage 0#8 =
      wholeSync s.nextStamp pt.page ((s.owingFor pt).cells.map (fun c => some (c.getD 0xFF#8))) := by
    rw [← hcells]
    simp only [Slot.filled, hpoison]
    rfl
  rw [hfilled]
  simp [State.owingFor, s.openedFor_eq hfit, Function.comp_def]

theorem State.olderComplete_eq_none (h : ∀ j x, s.slot j = some x → x.page = sl.page → sl.stamp ≤ x.stamp) :
    s.olderComplete sl = none := by
  simp only [State.olderComplete, Option.map_eq_none_iff, List.find?_eq_none, Bool.and_eq_true, beq_iff_eq,
    decide_eq_true_eq, not_and]
  rintro r hr ⟨hpage, hlt⟩
  exact absurd hlt (Nat.not_lt.mpr (h r.1 r.2 (State.mem_usedSlots.mp hr) hpage))

/-! ### The slots that owe the answer (02 R31, 03 R56) -/

theorem State.modSlot_of_slot (hk : s.slot k = some sl) (f : Slot → Slot) :
    s.modSlot k f = s.setSlot k (some (f sl)) := by
  simp only [State.modSlot, hk]

/-- A write counted that was merged into no slot. -/
theorem State.countWrite_of_opened {placed : List Placed} (h : ∀ p ∈ placed, p.opened = true) : s.countWrite placed =
    { s with stats := { s.stats with hostWrites := s.stats.hostWrites + 1 } } := by
  have hnone : (placed.any fun p => !p.opened) = false := by simpa using h
  simp [State.countWrite, hnone]

/-- The state in which a SYNC write of one part has opened its slot and waits for its departure. -/
def State.owing (s : State) (k : Nat) (pt : Part) : State :=
  { s with
    slots := s.slots.set k (some (s.owingFor pt)), nextStamp := s.nextStamp + 1, port := .holding [k] false
    stats := { s.stats with hostWrites := s.stats.hostWrites + 1 } }

theorem State.hold_one {pt : Part} {p : Placed} (hm : s.mergeTarget pt.page = none) (hk : s.firstFree = some k)
    (hfit : pt.off + pt.data.length ≤ 64) (hp : p.opened = true) :
    (((s.placing pt).countWrite [p]).hold [k]) = s.owing k pt := by
  rw [State.placing_of_open hm hk hfit, State.countWrite_of_opened (by simpa using hp)]
  simp only [State.hold, List.foldl_cons, List.foldl_nil]
  rw [State.modSlot_of_slot (sl := s.openedFor pt)]
  · simp only [State.setSlot, List.set_set]
    rfl
  · exact State.slot_set_self (s := s) rfl (State.lt_of_free (State.firstFree_eq_some_iff.mp hk).1)

/-- The state in which a SYNC write over two pages has opened its slots and waits for their departure. -/
def State.owingTwo (s : State) (k j : Nat) (lower upper : Part) : State :=
  { s with
    slots := (s.slots.set k (some (s.owingFor lower))).set j (some ((s.placing lower).owingFor upper))
    nextStamp := s.nextStamp + 2, port := .holding [k, j] false
    stats := { s.stats with hostWrites := s.stats.hostWrites + 1 } }

theorem set_both_again {α : Type} (l : List α) (h : k ≠ j) (x y x' y' : α) :
    (((l.set k x).set j y).set k x').set j y' = (l.set k x').set j y' := by
  rw [List.set_comm y x' h.symm, List.set_set, List.set_set]

theorem State.hold_two {lower upper : Part} {p q : Placed} (hm : s.mergeTarget lower.page = none)
    (hk : s.firstFree = some k) (hfit : lower.off + lower.data.length ≤ 64)
    (hm' : (s.placing lower).mergeTarget upper.page = none) (hj : (s.placing lower).firstFree = some j)
    (hfit' : upper.off + upper.data.length ≤ 64) (hp : p.opened = true) (hq : q.opened = true) :
    ((((s.placing lower).placing upper).countWrite [p, q]).hold [k, j]) = s.owingTwo k j lower upper := by
  have hklt := State.lt_of_free (State.firstFree_eq_some_iff.mp hk).1
  have hfree := (State.firstFree_eq_some_iff.mp hj).1
  have hjlt := State.lt_of_free hfree
  have hkslot : (s.placing lower).slot k = some (s.openedFor lower) := by
    rw [State.placing_of_open hm hk hfit]
    exact State.slot_set_self (s := s) rfl hklt
  have hne : k ≠ j := by
    rintro rfl
    rw [State.slot_eq_none_of_free hfree] at hkslot
    cases hkslot
  have hplacing : s.placing lower =
      { s with slots := s.slots.set k (some (s.openedFor lower)), nextStamp := s.nextStamp + 1 } :=
    State.placing_of_open hm hk hfit
  rw [State.placing_of_open hm' hj hfit', State.countWrite_of_opened (by simp [hp, hq])]
  simp only [State.hold, List.foldl_cons, List.foldl_nil, State.owingTwo, State.owingFor]
  generalize (s.placing lower).openedFor upper = opened
  rw [State.modSlot_of_slot (k := k) (sl := s.openedFor lower), State.modSlot_of_slot (k := j) (sl := opened)]
  · simp only [State.setSlot, hplacing, set_both_again _ hne]
  · exact (State.slot_set_of_ne (s := (s.placing lower).setSlot j (some opened)) (k := k) rfl hne.symm).trans
      (State.slot_set_self rfl hjlt)
  · exact (State.slot_set_of_ne (s := s.placing lower) (k := j) rfl hne).trans hkslot

/-- A SYNC write that passes the checks: its slots owe the answer, and then come the seals. -/
theorem settlesTo_syncWrite {addr : Nat} {data : List Byte} {parts : List Part} {placed : List Placed} (hq : s.Quiet)
    (hport : s.port = .idle) (hmode : s.mode = .run) (hlow : 1 ≤ data.length) (hhigh : data.length ≤ 64)
    (hparts : writeParts addr data = parts) (hrange : addr + data.length ≤ 64 * s.cfg.capacity)
    (hprot : ∀ pt ∈ parts, s.writeProtected pt.page = false) (hspace : s.space = .ample)
    (hsync : ∃ pt ∈ parts, s.commitMode pt.page = .sync) (hfree : parts.length ≤ s.freeCount)
    (hplace : s.placeParts parts = (v, placed)) :
    SettlesTo (exec (.hostWrite addr data) s)
      (((v.countWrite placed).hold (placed.map (·.slot))).writeSeals placed true) := by
  have hadmitted := State.takeWrite_admitted hparts hmode hrange hprot (State.spaceForbids_eq_false (.inl hspace))
    ((s.slotsNeeded_le parts).trans hfree)
  have hstep := settlesTo_hostWrite (addr := addr) hq hport hlow hhigh
  rw [hadmitted, State.placeWrite_sync hplace hsync] at hstep
  exact hstep

/-- A SYNC write of one part of an UNMAPPED page without a slot. -/
theorem settlesTo_syncOne {off : Nat} {data : List Byte} (hq : s.Quiet) (hport : s.port = .idle) (hmode : s.mode = .run)
    (hlow : 1 ≤ data.length) (hfit : off + data.length ≤ 64) (hpage : page < s.cfg.capacity)
    (hprot : s.writeProtected page = false) (hsync : s.commitMode page = .sync) (hspace : s.space = .ample)
    (hslot : s.hasSlot page = false) (hentry : s.entry page = .unmapped) (hroom : 5 ≤ s.freeCount)
    (hk : s.firstFree = some k) :
    SettlesTo (exec (.hostWrite (64 * page + off) data) s)
      ((s.owing k { page := page, off := off, data := data }).joined k
        ((s.owingFor { page := page, off := off, data := data }).filled erasedImage 0#8)) := by
  have hm := State.mergeTarget_of_no_slot hslot
  have hplace := State.placePart_of_open (pt := { page := page, off := off, data := data }) hm hk hfit
  have hstep := settlesTo_syncWrite hq hport hmode hlow (by omega) (writeParts_one hlow hfit) (by omega)
    (by simpa using hprot) hspace (by simpa using hsync) (by simp; omega) ((s.placeParts_one _).trans hplace)
  have hheld := State.hold_one (pt := { page := page, off := off, data := data })
    (p := { slot := k, opened := true, freeLeft := s.freeCount - 1 }) hm hk hfit rfl
  have hcalm : (s.owing k { page := page, off := off, data := data }).exhaustion = false :=
    State.exhaustion_of_space (by simp [State.owing, hspace])
  have hlt := State.lt_of_free (State.firstFree_eq_some_iff.mp hk).1
  have hat : (s.owing k { page := page, off := off, data := data }).slot k =
      some (s.owingFor { page := page, off := off, data := data }) := State.slot_set_self (s := s) rfl hlt
  have hnone : (s.owing k { page := page, off := off, data := data }).olderComplete
      (s.owingFor { page := page, off := off, data := data }) = none := by
    refine State.olderComplete_eq_none fun j x hx hxpage => ?_
    by_cases hj : j = k
    · subst hj
      rw [hat] at hx
      cases hx
      exact le_rfl
    · rw [State.slot_set_of_ne (s := s) rfl hj] at hx
      exact absurd hxpage (State.page_ne_of_hasSlot hslot hx)
  simp only [List.map_cons, List.map_nil] at hstep
  rw [hheld, State.writeSeals_one hcalm hat (fun _ => by simp only; omega), if_pos (.inr (.inl rfl)),
    State.seal_unmapped hcalm hat rfl (s.length_owingFor _) hnone hentry] at hstep
  exact hstep

section SyncTwo

variable {lower upper : Part} (hspace : s.space = .ample) (hne : k ≠ j) (hk : k < s.slots.length)
  (hj : j < s.slots.length) (hpages : lower.page ≠ upper.page) (hslot : s.hasSlot lower.page = false)
  (hslot' : s.hasSlot upper.page = false) (hentry : s.entry lower.page = .unmapped)
  (hentry' : s.entry upper.page = .unmapped)

/-- The slots a SYNC write over two pages leaves in the queue. -/
def State.heldTwo (s : State) (k j : Nat) (lower upper : Part) : State :=
  ((s.owingTwo k j lower upper).joined k ((s.owingFor lower).filled erasedImage 0#8)).joined j
    (((s.placing lower).owingFor upper).filled erasedImage 0#8)

include hne hk in
theorem State.owingTwo_slot_first : (s.owingTwo k j lower upper).slot k = some (s.owingFor lower) := by
  simp [State.slot, State.owingTwo, hne.symm, hk]

include hj in
theorem State.owingTwo_slot_second :
    (s.owingTwo k j lower upper).slot j = some ((s.placing lower).owingFor upper) := by
  simp [State.slot, State.owingTwo, hj]

theorem State.owingTwo_slot_of_ne {i : Nat} (hik : i ≠ k) (hij : i ≠ j) :
    (s.owingTwo k j lower upper).slot i = s.slot i := by
  simp [State.slot, State.owingTwo, hik.symm, hij.symm]

include hspace in
theorem State.owingTwo_calm : (s.owingTwo k j lower upper).exhaustion = false :=
  State.exhaustion_of_space (by simp [State.owingTwo, hspace])

include hspace hne hk hj hpages hslot hslot' hentry hentry' in
/-- Sealing both slots, the lower page's first, fills each with erased bytes. -/
theorem State.seal_owingTwo : ((s.owingTwo k j lower upper).seal k).seal j = s.heldTwo k j lower upper := by
  have hcalm : (s.owingTwo k j lower upper).exhaustion = false := State.owingTwo_calm hspace
  have hfirst := State.owingTwo_slot_first (lower := lower) (upper := upper) hne hk
  have hsecond := State.owingTwo_slot_second (k := k) (lower := lower) (upper := upper) hj
  have hnone : (s.owingTwo k j lower upper).olderComplete (s.owingFor lower) = none := by
    refine State.olderComplete_eq_none fun i x hx hpage => ?_
    by_cases hik : i = k
    · rw [hik, hfirst] at hx
      cases hx
      exact le_rfl
    · by_cases hij : i = j
      · rw [hij, hsecond] at hx
        cases hx
        exact absurd hpage.symm hpages
      · rw [State.owingTwo_slot_of_ne hik hij] at hx
        exact absurd hpage (State.page_ne_of_hasSlot hslot hx)
  rw [State.seal_unmapped hcalm hfirst rfl (s.length_owingFor lower) hnone hentry]
  have hklt : k < (s.owingTwo k j lower upper).slots.length := by simpa [State.owingTwo] using hk
  have hother : ∀ i, i ≠ k → ((s.owingTwo k j lower upper).joined k ((s.owingFor lower).filled erasedImage 0#8)).slot i =
      (s.owingTwo k j lower upper).slot i := fun i hi => State.slot_set_of_ne rfl hi
  have hnone' : ((s.owingTwo k j lower upper).joined k ((s.owingFor lower).filled erasedImage 0#8)).olderComplete
      ((s.placing lower).owingFor upper) = none := by
    refine State.olderComplete_eq_none fun i x hx hpage => ?_
    by_cases hik : i = k
    · rw [hik, State.slot_joined hklt] at hx
      cases hx
      exact absurd hpage hpages
    · rw [hother i hik] at hx
      by_cases hij : i = j
      · rw [hij, hsecond] at hx
        cases hx
        exact le_rfl
      · rw [State.owingTwo_slot_of_ne hik hij] at hx
        exact absurd hpage (State.page_ne_of_hasSlot hslot' hx)
  exact State.seal_unmapped hcalm ((hother j hne.symm).trans hsecond) rfl ((s.placing lower).length_owingFor upper) hnone'
    hentry'

include hspace hne hk hj hpages hslot hslot' hentry hentry' in
theorem State.writeSeals_owingTwo {p q : Placed} (hp : p.slot = k) (hq : q.slot = j)
    (hpopen : p.opened = true) (hqopen : q.opened = true) (hproom : 4 ≤ p.freeLeft) (hqroom : 4 ≤ q.freeLeft)
    (hlow : lower.off + lower.data.length ≤ 64) (hupp : upper.off + upper.data.length ≤ 64)
    (hpart : lower.data.length < 64) (hpart' : upper.data.length < 64)
    (hstamp : (s.placing lower).nextStamp = s.nextStamp + 1) :
    (s.owingTwo k j lower upper).writeSeals [p, q] true = s.heldTwo k j lower upper := by
  have hfirst := State.owingTwo_slot_first (lower := lower) (upper := upper) hne hk
  have hsecond := State.owingTwo_slot_second (k := k) (lower := lower) (upper := upper) hj
  have hpartly : ∀ (v : State) (pt : Part), pt.off + pt.data.length ≤ 64 → pt.data.length < 64 →
      (v.owingFor pt).full = false := fun v pt hfit hlt => by
    rw [← Bool.not_eq_true]
    exact fun hfull => absurd ((v.openedFor_full_iff hfit).mp hfull) (Nat.ne_of_lt hlt)
  have hstamps : (s.owingFor lower).stamp < ((s.placing lower).owingFor upper).stamp := by
    change s.nextStamp < (s.placing lower).nextStamp
    omega
  have hnone : [p, q].filter (fun p => p.opened && decide (p.freeLeft < 4)) = [] := by
    simp [Nat.not_lt.mpr hproom, Nat.not_lt.mpr hqroom]
  have hstamped : (s.owingTwo k j lower upper).byStamp [k, j] = [k, j] := by
    rw [State.byStamp_two hfirst hsecond, if_pos hstamps]
  have horder : (s.owingTwo k j lower upper).sealOrder [p, q] true =
      [k, j] ++ if (s.owingTwo k j lower upper).cfg.holdTime = 0 then [k, j] else [] := by
    simp [State.sealOrder, hp, hq, hstamped, hpopen, hqopen, hfirst, hsecond, hpartly s lower hlow hpart,
      hpartly (s.placing lower) upper hupp hpart']
  have hsealed : (s.owingTwo k j lower upper).sealEach [k, j] = s.heldTwo k j lower upper :=
    State.seal_owingTwo hspace hne hk hj hpages hslot hslot' hentry hentry'
  have hclosed : ∀ i ∈ [k, j], ((s.heldTwo k j lower upper).slot i).all (fun sl => !sl.isOpen) = true := by
    have hsecond' : (s.heldTwo k j lower upper).slot j = some (((s.placing lower).owingFor upper).filled erasedImage 0#8) :=
      State.slot_joined (by simpa [State.joined, State.owingTwo] using hj) _
    have hfirst' : (s.heldTwo k j lower upper).slot k = some ((s.owingFor lower).filled erasedImage 0#8) :=
      (State.slot_set_of_ne (k := j) rfl hne).trans (State.slot_joined (by simpa [State.owingTwo] using hk) _)
    simp only [List.forall_mem_cons, hfirst', hsecond']
    exact ⟨rfl, rfl, by simp⟩
  rw [State.writeSeals_eq, hnone, List.foldl_nil, horder, State.sealEach, List.foldl_append]
  change ((s.owingTwo k j lower upper).sealEach [k, j]).sealEach _ = _
  rw [hsealed]
  refine State.sealEach_of_not_open _ fun i hi => hclosed i ?_
  split at hi
  · exact hi
  · cases hi

end SyncTwo

theorem State.filled_owing_lower (s : State) {off : Nat} {data : List Byte} (hoff : off < 64)
    (hover : 64 < off + data.length) :
    (s.owingFor { page := page, off := off, data := data.take (64 - off) }).filled erasedImage 0#8 =
      wholeSync s.nextStamp page (List.replicate off (some 0xFF#8) ++ (data.take (64 - off)).map some) := by
  have hlen : (data.take (64 - off)).length = 64 - off := by
    simp only [List.length_take]
    omega
  rw [s.filled_owingFor (by simp only [hlen]; omega)]
  simp [hlen]

theorem State.filled_owing_upper (s : State) {off : Nat} {data : List Byte} (hoff : off < 64)
    (hover : 64 < off + data.length) (hhigh : data.length ≤ 64) :
    (s.owingFor { page := page, off := 0, data := data.drop (64 - off) }).filled erasedImage 0#8 =
      wholeSync s.nextStamp page
        ((data.drop (64 - off)).map some ++ List.replicate (128 - off - data.length) (some 0xFF#8)) := by
  have hlen : (data.drop (64 - off)).length = data.length - (64 - off) := List.length_drop
  have hrest : 64 - (data.length - (64 - off)) = 128 - off - data.length := by omega
  rw [s.filled_owingFor (by simp only [hlen]; omega)]
  simp [hlen, hrest]

/-- A SYNC write over two UNMAPPED pages without a slot. -/
theorem settlesTo_syncTwo {off : Nat} {data : List Byte} (hq : s.Quiet) (hport : s.port = .idle) (hmode : s.mode = .run)
    (hoff : off < 64) (hover : 64 < off + data.length) (hhigh : data.length ≤ 64) (hpage : page + 1 < s.cfg.capacity)
    (hprot : s.writeProtected page = false) (hprot' : s.writeProtected (page + 1) = false)
    (hsync : s.commitMode page = .sync ∨ s.commitMode (page + 1) = .sync) (hspace : s.space = .ample)
    (hslot : s.hasSlot page = false) (hslot' : s.hasSlot (page + 1) = false) (hentry : s.entry page = .unmapped)
    (hentry' : s.entry (page + 1) = .unmapped) (hroom : 6 ≤ s.freeCount) (hfree : s.slots[k]? = some none)
    (hlowest : ∀ i < k, s.slots[i]? ≠ some none) (hkj : k < j) (hfree' : s.slots[j]? = some none)
    (hlowest' : ∀ i < j, i ≠ k → s.slots[i]? ≠ some none) {lower upper : Part}
    (hlower : lower = { page := page, off := off, data := data.take (64 - off) })
    (hupper : upper = { page := page + 1, off := 0, data := data.drop (64 - off) }) :
    SettlesTo (exec (.hostWrite (64 * page + off) data) s) (s.heldTwo k j lower upper) := by
  have hk : s.firstFree = some k := State.firstFree_eq_some_iff.mpr ⟨hfree, hlowest⟩
  have hlow : lower.page = page := by rw [hlower]
  have hupp : upper.page = page + 1 := by rw [hupper]
  have hfits : lower.off + lower.data.length ≤ 64 ∧ lower.data.length < 64 := by
    rw [hlower]
    simp only [List.length_take]
    omega
  have hfits' : upper.off + upper.data.length ≤ 64 ∧ upper.data.length < 64 := by
    rw [hupper]
    simp only [List.length_drop]
    omega
  have hpages : lower.page ≠ upper.page := by simp [hlow, hupp]
  have hm : s.mergeTarget lower.page = none := State.mergeTarget_of_no_slot (hlow ▸ hslot)
  have hplacing := State.placing_of_open hm hk hfits.1
  have hslots : (s.placing lower).slots = s.slots.set k (some (s.openedFor lower)) := by rw [hplacing]; rfl
  have hm' : (s.placing lower).mergeTarget upper.page = none := by
    rw [State.mergeTarget_set hslots (fun x hx => by rw [State.slot_eq_none_of_free hfree] at hx; cases hx)
      fun x hx => by cases hx; exact hpages]
    exact State.mergeTarget_of_no_slot (hupp ▸ hslot')
  have hj : (s.placing lower).firstFree = some j := by
    refine State.firstFree_eq_some_iff.mpr ⟨?_, fun i hi => ?_⟩
    · rw [hslots, List.getElem?_set_ne (Nat.ne_of_lt hkj), hfree']
    · rw [hslots]
      by_cases hik : i = k
      · subst hik
        simp [State.lt_of_free hfree]
      · rw [List.getElem?_set_ne (Ne.symm hik)]
        exact hlowest' i hi hik
  have hcount := State.freeCount_set hfree hslots
  have hplace : s.placeParts [lower, upper] = ((s.placing lower).placing upper,
      [{ slot := k, opened := true, freeLeft := s.freeCount - 1 },
        { slot := j, opened := true, freeLeft := (s.placing lower).freeCount - 1 }]) := by
    simp [State.placeParts, State.placePart_of_open hm hk hfits.1, State.placePart_of_open hm' hj hfits'.1]
  have hstep := settlesTo_syncWrite (addr := 64 * page + off) (data := data) (parts := [lower, upper]) hq hport hmode
    (by omega) hhigh (by rw [writeParts_two hoff hover, hlower, hupper]) (by omega)
    (by simp [hlow, hupp, hprot, hprot']) hspace (by simpa [hlow, hupp] using hsync) (by simp; omega) hplace
  simp only [List.map_cons, List.map_nil] at hstep
  rw [State.hold_two hm hk hfits.1 hm' hj hfits'.1 rfl rfl, State.writeSeals_owingTwo hspace (Nat.ne_of_lt hkj)
    (State.lt_of_free hfree) (State.lt_of_free hfree') hpages (hlow ▸ hslot) (hupp ▸ hslot') (hlow ▸ hentry)
    (hupp ▸ hentry') rfl rfl rfl rfl (by simp only; omega) (by simp only; omega) hfits.1 hfits'.1 hfits.2 hfits'.2
    (by rw [hplacing])] at hstep
  exact hstep

/-! ### The answer at the departure (02 R45, 03 R56) -/

/-- The departure of the last slot that owes gives the held answer. -/
theorem State.freeSlot_last {failed : Bool} (hport : s.port = .holding [k] failed) (hk : s.slot k = some sl)
    (howed : sl.owed = true) (how : Leave) :
    (s.freeSlot k how).port = .idle ∧
      (s.freeSlot k how).answers = s.answers ++ [if failed || how == .lost then .fault .commitFailed else .done] := by
  obtain ⟨hp, ha⟩ := State.freeSlot_port_of_owed hk howed how
  rw [State.reportHeld_last (s := s.setSlot k none) hport] at hp ha
  exact ⟨hp, ha⟩

/-- The departure of the first of two slots that owe leaves the other owing. -/
theorem State.freeSlot_first {failed : Bool} (hport : s.port = .holding [k, j] failed) (hk : s.slot k = some sl)
    (howed : sl.owed = true) (how : Leave) :
    (s.freeSlot k how).port = .holding [j] (failed || how == .lost) ∧ (s.freeSlot k how).answers = s.answers := by
  obtain ⟨hp, ha⟩ := State.freeSlot_port_of_owed hk howed how
  rw [State.reportHeld_first (s := s.setSlot k none) hport] at hp ha
  exact ⟨hp, ha⟩

/-- Settles O31: one page, two pages, and the departures of the slots that owe. -/
theorem syncWriteHeld : Obligations.SyncWriteHeld := by
  refine ⟨?_, ?_, fun s k failed how hport sl hk howed => ?_, fun s k j failed how _ hport sl hk howed =>
    State.freeSlot_first hport hk howed how⟩
  · intro s page off k data hq hport hmode hlow hfit hpage hprot hsync hspace hslot hentry hroom hfree hlowest
    have hstep := settlesTo_syncOne hq hport hmode hlow hfit hpage hprot hsync hspace hslot hentry hroom
      (State.firstFree_eq_some_iff.mpr ⟨hfree, hlowest⟩)
    rw [s.filled_owingFor hfit] at hstep
    simpa only [State.joined, State.owing, wholeSync, List.set_set] using hstep
  · intro s page off k j data hq hport hmode hoff hover hhigh hpage hprot hprot' hsync hspace hslot hslot' hentry hentry'
      hroom hfree hlowest hkj hfree' hlowest' whole
    have hstep := settlesTo_syncTwo hq hport hmode hoff hover hhigh hpage hprot hprot' hsync hspace hslot hslot' hentry
      hentry' hroom hfree hlowest hkj hfree' hlowest' rfl rfl
    have hstamp : (s.placing { page := page, off := off, data := data.take (64 - off) }).nextStamp = s.nextStamp + 1 := by
      rw [State.placing_of_open (pt := { page := page, off := off, data := data.take (64 - off) })
        (State.mergeTarget_of_no_slot hslot) (State.firstFree_eq_some_iff.mpr ⟨hfree, hlowest⟩)
        (by simp only [List.length_take]; omega)]
    rw [State.heldTwo, s.filled_owing_lower hoff hover, State.filled_owing_upper _ hoff hover hhigh, hstamp] at hstep
    simpa only [State.joined, State.owingTwo, wholeSync, set_both_again _ (Nat.ne_of_lt hkj), List.append_assoc,
      List.cons_append, List.nil_append] using hstep
  · obtain ⟨hidle, hanswers⟩ := State.freeSlot_last hport hk howed how
    exact ⟨hidle, s.slot_freeSlot_self k how, hanswers⟩

end Sys2Proof.Machine
end

section
/-! PROOFS. The sealing of every OPEN slot: what it can change whatever the exhaustion condition makes of the slots that
join the queue, and what it makes of each slot. -/

namespace Sys2Proof.Machine

variable {s t u : State} {k j : Nat} {sl : Slot}

/-! ### What seals can change -/

/-- Everything is as it was but for what departures change and for the claims that wait. -/
def SealsOnly (s t : State) : Prop :=
  ∃ a b, PoolOnly { s with laneA := { s.laneA with claims := a }, laneB := { s.laneB with claims := b } } t

theorem PoolOnly.sealsOnly (h : PoolOnly s t) : SealsOnly s t := ⟨s.laneA.claims, s.laneB.claims, h⟩

theorem SealsOnly.trans (h : SealsOnly s t) (g : SealsOnly t u) : SealsOnly s u := by
  obtain ⟨_, _, _, _, _, _, _, _, _, _, _, _, rfl⟩ := h
  obtain ⟨c, d, hd⟩ := g
  refine ⟨c, d, PoolOnly.trans ⟨_, _, _, _, _, _, _, _, _, _, rfl⟩ hd⟩

theorem sealsOnly_post (s : State) (l : LaneId) (c : Claim) : SealsOnly s (s.post l c) := by
  cases l
  · exact ⟨s.laneA.claims ++ [c], s.laneB.claims, .refl _⟩
  · exact ⟨s.laneA.claims, s.laneB.claims ++ [c], .refl _⟩

/-- The mode is as it was, but DRAINED where a drain's last slot has left the pool (10 R156). -/
def ModeRule (s t : State) : Prop :=
  t.mode = if s.mode = .draining ∧ s.causes.any = true ∧ t.allFree = true ∧ s.allFree = false then .drained else s.mode

/-- No departure completes a FLUSH: none is pending, or no slot carries its mark. -/
def State.NoFlushEnds (s : State) : Prop :=
  (∀ lost, s.longCmd ≠ some (.flush lost)) ∨ ∀ k sl, s.slot k = some sl → sl.flushMark = false

/-- The long command is as it was, but for a QUIESCE that ends as the pool runs empty (10 R158). -/
def LongRule (s t : State) : Prop :=
  t.longCmd = s.longCmd ∨ (t.longCmd = none ∧ t.allFree = true ∧ s.longCmd = some .quiesce)

/-- What the seals of a step, with the drops that follow them, do to the state around the slots. -/
structure Sealing (s t : State) : Prop where
  only : SealsOnly s t
  free : ∀ k, s.slot k = none → t.slot k = none
  mode : ModeRule s t
  long : s.NoFlushEnds → LongRule s t ∧ t.NoFlushEnds

theorem SealsOnly.causes (h : SealsOnly s t) : t.causes = s.causes := by
  obtain ⟨_, _, _, _, _, _, _, _, _, _, _, _, rfl⟩ := h
  rfl

theorem SealsOnly.exhaustion (h : SealsOnly s t) : t.exhaustion = s.exhaustion := by
  obtain ⟨_, _, _, _, _, _, _, _, _, _, _, _, rfl⟩ := h
  rfl

theorem State.allFree_mono (h : ∀ k, s.slot k = none → t.slot k = none) (hs : s.allFree = true) : t.allFree = true :=
  State.allFree_iff.mpr fun k => h k (State.allFree_iff.mp hs k)

theorem State.not_allFree_of_slot (hk : s.slot k = some sl) : s.allFree = false := by
  rw [← Bool.not_eq_true, State.allFree_iff]
  intro h
  rw [h k] at hk
  cases hk

theorem Sealing.trans (h : Sealing s t) (g : Sealing t u) : Sealing s u where
  only := h.only.trans g.only
  free := fun k hk => g.free k (h.free k hk)
  mode := by
    have hst : s.allFree = true → t.allFree = true := State.allFree_mono h.free
    have htu : t.allFree = true → u.allFree = true := State.allFree_mono g.free
    have h1 := h.mode
    have h2 := g.mode
    unfold ModeRule at *
    rw [h.only.causes] at h2
    cases hs : s.allFree <;> cases ht : t.allFree <;> simp_all
  long := fun hcalm => by
    obtain ⟨h1, hcalm'⟩ := h.long hcalm
    obtain ⟨h2, hcalm''⟩ := g.long hcalm'
    refine ⟨?_, hcalm''⟩
    rcases h1 with h1 | ⟨h1, hfree, hq⟩
    · rcases h2 with h2 | ⟨h2, hfree', hq'⟩
      · exact .inl (h2.trans h1)
      · exact .inr ⟨h2, hfree', h1 ▸ hq'⟩
    · refine .inr ⟨?_, State.allFree_mono g.free hfree, hq⟩
      rcases h2 with h2 | ⟨h2, -, -⟩
      · exact h2.trans h1
      · exact h2

/-- A change that leaves mode, long command and marks, and takes no slot away. -/
theorem Sealing.of_kept (honly : SealsOnly s t) (hfree : ∀ k, s.slot k = none ↔ t.slot k = none) (hmode : t.mode = s.mode)
    (hlong : t.longCmd = s.longCmd)
    (hmarks : (∀ k sl, s.slot k = some sl → sl.flushMark = false) → ∀ k sl, t.slot k = some sl → sl.flushMark = false) :
    Sealing s t where
  only := honly
  free := fun k hk => (hfree k).mp hk
  mode := by
    have hsame : t.allFree = s.allFree := by
      rw [Bool.eq_iff_iff, State.allFree_iff, State.allFree_iff]
      exact (forall_congr' hfree).symm
    unfold ModeRule
    rw [hsame, hmode]
    cases s.allFree <;> simp
  long := fun h => ⟨.inl hlong, h.imp (fun h lost => hlong ▸ h lost) hmarks⟩

theorem Sealing.refl (s : State) : Sealing s s :=
  .of_kept (PoolOnly.refl s).sealsOnly (fun _ => .rfl) rfl rfl id

/-! ### Drops -/

theorem State.quiesceCheck_longCmd (s : State) :
    s.quiesceCheck.longCmd = s.longCmd ∨ (s.quiesceCheck.longCmd = none ∧ s.longCmd = some .quiesce) := by
  unfold State.quiesceCheck
  split
  · rename_i h
    exact .inr ⟨by simp, h.1⟩
  · exact .inl rfl

theorem State.poolReport_longRule (s : State) : LongRule s s.poolReport := by
  have hfree : s.poolReport.allFree = s.allFree := by simp [State.allFree]
  unfold LongRule
  rw [hfree]
  unfold State.poolReport
  split
  · rename_i h
    rcases State.quiesceCheck_longCmd { s with mode := .drained } with e | ⟨e, hq⟩
    · exact .inl e
    · exact .inr ⟨e, h.1, hq⟩
  · exact .inl rfl

theorem State.leaving_longCmd (h : (∀ lost, s.longCmd ≠ some (.flush lost)) ∨ sl.flushMark = false) (how : Leave) :
    (s.leaving k sl how).longCmd = s.longCmd := by
  have hreport : (if sl.owed then (s.setSlot k none).reportHeld k (how == .lost) else s.setSlot k none).longCmd =
      s.longCmd := by
    split <;> simp
  unfold State.leaving
  dsimp only
  split
  · rename_i hmark
    have hno := h.resolve_right (by simp [hmark])
    unfold State.flushCheck
    split
    · rename_i lost hflush
      exact absurd (hreport.symm.trans hflush) (hno lost)
    · exact hreport
  · exact hreport

/-- The departure of one slot, where it completes no FLUSH. -/
theorem longRule_freeSlot (h : (∀ lost, s.longCmd ≠ some (.flush lost)) ∨ sl.flushMark = false)
    (hk : s.slot k = some sl) (how : Leave) : LongRule s (s.freeSlot k how) := by
  have hkept := State.leaving_longCmd (k := k) h how
  have hrule := State.poolReport_longRule (s.leaving k sl how)
  rw [← State.freeSlot_of_slot hk how] at hrule
  unfold LongRule at hrule ⊢
  rwa [hkept] at hrule

theorem LongRule.noFlushEnds (h : LongRule s t) (hcalm : s.NoFlushEnds)
    (hslots : ∀ j x, t.slot j = some x → ∃ y, s.slot j = some y ∧ (y.flushMark = false → x.flushMark = false)) :
    t.NoFlushEnds := by
  rcases hcalm with hno | hunmarked
  · refine .inl fun lost => ?_
    rcases h with h | ⟨h, -, -⟩ <;> rw [h]
    · exact hno lost
    · simp
  · refine .inr fun j x hx => ?_
    obtain ⟨y, hy, himp⟩ := hslots j x hx
    exact himp (hunmarked j y hy)

theorem sealing_freeSlot (s : State) (k : Nat) (how : Leave) : Sealing s (s.freeSlot k how) := by
  cases hk : s.slot k with
  | none => simp only [State.freeSlot, hk]; exact .refl s
  | some sl =>
    have hgone := s.slot_freeSlot_self k how
    have hstay := fun j (hj : j ≠ k) => State.slot_freeSlot_of_ne (s := s) how hj
    refine ⟨(poolOnly_freeSlot ..).sealsOnly, fun j hj => ?_, ?_, fun hcalm => ?_⟩
    · rwa [hstay j (fun e => by rw [e, hk] at hj; cases hj)]
    · have hnot := State.not_allFree_of_slot hk
      unfold ModeRule
      rw [State.freeSlot_mode hk how, hnot]
      congr 1
      exact propext (by tauto)
    · have hrule := longRule_freeSlot (hcalm.imp_right (· k sl hk)) hk how
      refine ⟨hrule, hrule.noFlushEnds hcalm fun j x hx => ?_⟩
      have hjk : j ≠ k := fun e => by rw [e, hgone] at hx; cases hx
      exact ⟨x, by rwa [hstay j hjk] at hx, id⟩

theorem sealing_dropSlot (s : State) (k cause : Nat) (target : Option PPage) :
    Sealing s (s.dropSlot k cause target) := by
  cases hk : s.slot k with
  | none =>
    rw [State.dropSlot_of_free hk]
    exact .of_kept (PoolOnly.sealsOnly ⟨_, _, _, _, _, _, _, _, _, _, rfl⟩) (fun _ => .rfl) rfl rfl id
  | some sl =>
    rw [State.dropSlot_of_slot hk]
    exact (Sealing.of_kept (poolOnly_lossNoted ..).sealsOnly (fun _ => .rfl) rfl rfl id).trans (sealing_freeSlot ..)

theorem sealing_foldl {α : Type} {f : State → α → State} (h : ∀ s a, Sealing s (f s a)) (as : List α) (s : State) :
    Sealing s (as.foldl f s) := by
  induction as generalizing s with
  | nil => exact .refl s
  | cons a as ih => exact (h s a).trans (ih _)

theorem sealing_enqueueTail (s : State) (k : Nat) : Sealing s (s.enqueueTail k) := by
  have hqueue : Sealing s { s with commitQueue := s.commitQueue ++ [k] } :=
    .of_kept (PoolOnly.sealsOnly ⟨_, _, _, _, _, _, _, _, _, _, rfl⟩) (fun _ => .rfl) rfl rfl id
  refine hqueue.trans ?_
  unfold State.enqueueTail State.exhaust
  split
  · exact sealing_foldl (fun t j => sealing_dropSlot t j ..) _ _
  · exact .refl _

/-! ### Seals -/

theorem State.sealedAs_flushMark {u : Slot} (h : s.sealedAs sl = some u) : u.flushMark = sl.flushMark := by
  unfold State.sealedAs at h
  split at h
  · cases h; rfl
  · obtain ⟨r, -, rfl⟩ := Option.map_eq_some_iff.mp h
    rfl

/-- A slot that changes with its mark kept. -/
theorem sealing_set {u : Slot} (honly : SealsOnly s t) (hslots : t.slots = s.slots.set k (some u)) (hmode : t.mode = s.mode)
    (hlong : t.longCmd = s.longCmd) (hk : s.slot k = some sl) (hmark : u.flushMark = sl.flushMark) : Sealing s t := by
  have hself : t.slot k = some u := State.slot_set_self hslots (State.lt_of_slot hk)
  have hother := fun j (hj : j ≠ k) => State.slot_set_of_ne hslots hj
  refine .of_kept honly (fun j => ?_) hmode hlong fun hun j x hx => ?_ <;> by_cases hjk : j = k
  · rw [hjk, hk, hself]; simp
  · rw [hother j hjk]
  · rw [hjk, hself] at hx
    cases hx
    rw [hmark]
    exact hun k sl hk
  · exact hun j x (by rwa [hother j hjk] at hx)

theorem sealing_seal (s : State) (k : Nat) : Sealing s (s.seal k) := by
  rcases s.seal_cases k with ⟨-, h⟩ | ⟨sl, hk, -, ⟨u, hu, h⟩ | ⟨-, p, q, -, h⟩⟩ <;> rw [h]
  · exact .refl s
  · exact (sealing_set (PoolOnly.sealsOnly ⟨_, _, _, _, _, _, _, _, _, _, rfl⟩) rfl rfl rfl hk
      (State.sealedAs_flushMark hu)).trans (sealing_enqueueTail ..)
  · have hset : SealsOnly s (s.setSlot k (some { sl with phase := .filling })) :=
      PoolOnly.sealsOnly ⟨_, _, _, _, _, _, _, _, _, _, rfl⟩
    have hsame : ∀ (v : State) (l : LaneId) (c : Claim), (v.post l c).slots = v.slots ∧ (v.post l c).mode = v.mode ∧
        (v.post l c).longCmd = v.longCmd := fun v l c => by cases l <;> exact ⟨rfl, rfl, rfl⟩
    obtain ⟨hslots, hmode, hlong⟩ := hsame (s.setSlot k (some { sl with phase := .filling })) p.lane (.fillRead k)
    exact sealing_set (hset.trans (sealsOnly_post ..)) hslots hmode hlong hk rfl

theorem sealing_sealEach (s : State) (ks : List Nat) : Sealing s (s.sealEach ks) := sealing_foldl sealing_seal ks s

theorem sealing_sealAll (s : State) : Sealing s s.sealAll := sealing_sealEach ..

end Sys2Proof.Machine
end

section
/-! PROOFS. The slots after every OPEN slot is sealed: each slot's fate, inside and outside the exhaustion condition, and
the order in which the sealed ones join the queue. -/

namespace Sys2Proof.Machine

variable {s : State} {k j : Nat} {sl : Slot} {ks : List Nat}

/-! ### The OPEN slots in order (02 R32) -/

theorem State.mem_openSlots : k ∈ s.openSlots ↔ (s.slot k).any Slot.isOpen = true := by
  simp only [State.openSlots, List.mem_map, (sortByStamp_perm _).mem_iff, List.mem_filter, State.mem_usedSlots,
    Option.any_eq_true]
  constructor
  · rintro ⟨r, ⟨hslot, hopen⟩, rfl⟩
    exact ⟨r.2, hslot, hopen⟩
  · rintro ⟨x, hslot, hopen⟩
    exact ⟨(k, x), ⟨hslot, hopen⟩, rfl⟩

theorem State.nodup_openSlots (s : State) : s.openSlots.Nodup :=
  ((sortByStamp_perm _).map _).nodup_iff.mpr (s.nodup_usedSlots.sublist (List.filter_sublist.map _))

theorem State.openSlots_pairwise (s : State) : s.openSlots.Pairwise
    (fun j k => ∀ x, s.slot j = some x → ∀ y, s.slot k = some y → x.stamp ≤ y.stamp) := by
  refine List.pairwise_map.mpr ((sortByStamp_sorted _).imp_of_mem fun {p q} hp hq hle x hx y hy => ?_)
  have hslot : ∀ r ∈ sortByStamp (s.usedSlots.filter (fun p => p.2.isOpen)), s.slot r.1 = some r.2 := fun r hr =>
    State.mem_usedSlots.mp (List.mem_of_mem_filter ((sortByStamp_perm _).mem_iff.mp hr))
  rw [hslot p hp] at hx
  rw [hslot q hq] at hy
  cases hx
  cases hy
  exact hle

/-! ### The fate of a slot, whatever the exhaustion condition -/

theorem State.slot_enqueueTail (s : State) (k j : Nat) :
    (s.enqueueTail k).slot j = none ∨ (s.enqueueTail k).slot j = s.slot j := by
  cases h : s.exhaustion with
  | false => exact .inr (by rw [State.enqueueTail_of_not h]; rfl)
  | true =>
    obtain ⟨-, -, hgone, hstay⟩ := State.exhaust_of (s := { s with commitQueue := s.commitQueue ++ [k] }) h
    by_cases hj : j ∈ s.commitQueue ++ [k]
    · exact .inl (hgone j hj)
    · exact .inr (hstay j hj)

/-- A seal acts on one OPEN slot; another slot can only be dropped by it. -/
theorem State.slot_seal_of_other (h : j ≠ k ∨ (s.slot j).any Slot.isOpen = false) :
    (s.seal k).slot j = none ∨ (s.seal k).slot j = s.slot j := by
  obtain ⟨-, e⟩ | ⟨sl, hk, hopen, hcase⟩ := s.seal_cases k
  · exact .inr (by rw [e])
  · have hne : j ≠ k := h.elim id (fun hclosed e => by rw [e, hk] at hclosed; simp_all)
    obtain ⟨u, -, e⟩ | ⟨-, p, q, -, e⟩ := hcase
    · have hset : (s.setSlot k (some u)).slot j = s.slot j := State.slot_set_of_ne rfl hne
      rw [e, ← hset]
      exact State.slot_enqueueTail ..
    · exact .inr (by rw [e]; exact State.slot_set_of_ne rfl hne)

/-- The sealed slot is not OPEN afterwards. -/
theorem State.slot_seal_self (s : State) (k : Nat) : ((s.seal k).slot k).any Slot.isOpen = false := by
  obtain ⟨hclosed, e⟩ | ⟨sl, hk, -, ⟨u, hu, e⟩ | ⟨-, p, q, -, e⟩⟩ := s.seal_cases k
  · rw [e]
    cases hk : s.slot k <;> simp_all
  · have hself : (s.setSlot k (some u)).slot k = some u := State.slot_set_self rfl (State.lt_of_slot hk)
    rw [e]
    rcases (s.setSlot k (some u)).slot_enqueueTail k k with h | h <;> rw [h]
    · rfl
    · rw [hself]
      simp [Slot.isOpen, (State.sealedAs_spec hu).1]
  · rw [e, State.slot_set_self (s := s) rfl (State.lt_of_slot hk)]
    rfl

theorem State.slot_sealEach_of_other (h : j ∉ ks ∨ (s.slot j).any Slot.isOpen = false) :
    (s.sealEach ks).slot j = none ∨ (s.sealEach ks).slot j = s.slot j := by
  induction ks generalizing s with
  | nil => exact .inr rfl
  | cons k ks ih =>
    have hhead : (s.seal k).slot j = none ∨ (s.seal k).slot j = s.slot j :=
      State.slot_seal_of_other (h.imp_left fun hj e => hj (e ▸ List.mem_cons_self))
    change ((s.seal k).sealEach ks).slot j = none ∨ ((s.seal k).sealEach ks).slot j = s.slot j
    rcases hhead with hnone | hsame
    · rcases ih (s := s.seal k) (.inr (by rw [hnone]; rfl)) with e | e
      · exact .inl e
      · exact .inl (e.trans hnone)
    · rw [← hsame]
      exact ih (h.imp (fun hj hm => hj (List.mem_cons_of_mem _ hm)) (fun hclosed => hsame ▸ hclosed))

theorem State.slot_sealEach_closed (hj : j ∈ ks) : ((s.sealEach ks).slot j).any Slot.isOpen = false := by
  induction ks generalizing s with
  | nil => cases hj
  | cons k ks ih =>
    change (((s.seal k).sealEach ks).slot j).any Slot.isOpen = false
    by_cases hmem : j ∈ ks
    · exact ih hmem
    · obtain rfl : j = k := by simpa [hmem] using hj
      have hclosed := s.slot_seal_self j
      rcases State.slot_sealEach_of_other (s := s.seal j) (ks := ks) (.inr hclosed) with e | e <;> rw [e]
      · rfl
      · exact hclosed

theorem State.openSlots_sealAll (s : State) : s.sealAll.openSlots = [] := by
  refine List.eq_nil_iff_forall_not_mem.mpr fun j hj => ?_
  rw [State.mem_openSlots] at hj
  by_cases hopen : j ∈ s.openSlots
  · rw [State.sealAll, State.slot_sealEach_closed hopen] at hj
    cases hj
  · rcases State.slot_sealEach_of_other (s := s) (.inl hopen) with e | e <;> rw [State.sealAll, e] at hj
    · cases hj
    · exact hopen (State.mem_openSlots.mpr hj)

/-! ### Under the exhaustion condition (05 R92) -/

theorem State.enqueueTail_of_exhaustion (h : s.exhaustion = true) (k : Nat) : (s.enqueueTail k).commitQueue = [] ∧
    (s.enqueueTail k).slot k = none ∧ ∀ j, j ≠ k → j ∉ s.commitQueue → (s.enqueueTail k).slot j = s.slot j := by
  obtain ⟨-, hqueue, hgone, hstay⟩ := State.exhaust_of (s := { s with commitQueue := s.commitQueue ++ [k] }) h
  exact ⟨hqueue, hgone k (by simp), fun j hj hq => hstay j (by simp [hj, hq])⟩

/-- Under the exhaustion condition a seal drops its slot with the queue, or leaves it FILLING and the queue as it was. -/
theorem State.seal_of_exhaustion (h : s.exhaustion = true) (k : Nat) :
    ((s.seal k).commitQueue = [] ∨ (s.seal k).commitQueue = s.commitQueue) ∧
    (∀ sl, s.slot k = some sl → sl.isOpen = true →
      (s.seal k).slot k = none ∨ (s.seal k).slot k = some { sl with phase := .filling }) ∧
    ∀ j, (j ≠ k ∨ (s.slot j).any Slot.isOpen = false) → j ∉ s.commitQueue → (s.seal k).slot j = s.slot j := by
  obtain ⟨hclosed, e⟩ | ⟨x, hk, hopen, hcase⟩ := s.seal_cases k
  · rw [e]
    exact ⟨.inr rfl, fun sl hk hopen => by simp_all, fun j _ _ => rfl⟩
  · have hne : ∀ j, (j ≠ k ∨ (s.slot j).any Slot.isOpen = false) → j ≠ k := fun j hj =>
      hj.elim id (fun hclosed e => by rw [e, hk] at hclosed; simp_all)
    obtain ⟨u, -, e⟩ | ⟨-, p, q, -, e⟩ := hcase <;> rw [e]
    · obtain ⟨hqueue, hgone, hstay⟩ := State.enqueueTail_of_exhaustion (s := s.setSlot k (some u)) h k
      exact ⟨.inl hqueue, fun _ _ _ => .inl hgone,
        fun j hj hq => (hstay j (hne j hj) hq).trans (State.slot_set_of_ne rfl (hne j hj))⟩
    · refine ⟨.inr ?_, fun sl hsl _ => .inr ?_, fun j hj _ => State.slot_set_of_ne rfl (hne j hj)⟩
      · cases p with | mk l i => cases l <;> rfl
      · rw [hk] at hsl
        cases hsl
        exact State.slot_set_self rfl (State.lt_of_slot hk)

theorem State.sealEach_of_exhaustion (h : s.exhaustion = true) (ks : List Nat) :
    ((s.sealEach ks).commitQueue = [] ∨ (s.sealEach ks).commitQueue = s.commitQueue) ∧
    (∀ j ∈ ks, ∀ sl, s.slot j = some sl → sl.isOpen = true →
      (s.sealEach ks).slot j = none ∨ (s.sealEach ks).slot j = some { sl with phase := .filling }) ∧
    ∀ j, (s.slot j).any Slot.isOpen = false → j ∉ s.commitQueue → (s.sealEach ks).slot j = s.slot j := by
  induction ks generalizing s with
  | nil => exact ⟨.inr rfl, by simp, fun _ _ _ => rfl⟩
  | cons k ks ih =>
    obtain ⟨hqueue, hself, hother⟩ := State.seal_of_exhaustion h k
    obtain ⟨ihqueue, ihself, ihother⟩ := ih (s := s.seal k) ((sealing_seal s k).only.exhaustion.trans h)
    change (((s.seal k).sealEach ks).commitQueue = [] ∨ ((s.seal k).sealEach ks).commitQueue = s.commitQueue) ∧ _
    refine ⟨?_, fun j hj sl hsl hopen => ?_, fun j hclosed hq => ?_⟩
    · rcases ihqueue with e | e
      · exact .inl e
      · exact hqueue.imp e.trans e.trans
    · change ((s.seal k).sealEach ks).slot j = none ∨ ((s.seal k).sealEach ks).slot j = _
      by_cases hjk : j = k
      · subst hjk
        rcases hself sl hsl hopen with e | e
        · exact .inl ((sealing_sealEach (s.seal j) ks).free j e)
        · rw [← e]
          exact State.slot_sealEach_of_other (.inr (s.slot_seal_self j))
      · have hmem : j ∈ ks := by simpa [hjk] using hj
        rcases State.slot_seal_of_other (s := s) (.inl hjk) with e | e
        · exact .inl ((sealing_sealEach (s.seal k) ks).free j e)
        · exact ihself j hmem sl (e.trans hsl) hopen
    · have hsame := hother j (.inr hclosed) hq
      refine (ihother j (by rw [hsame, hclosed]) ?_).trans hsame
      rcases hqueue with e | e <;> rw [e]
      · simp
      · exact hq

end Sys2Proof.Machine
end

section
/-! PROOFS. The pool sealed outside the exhaustion condition: what each seal stages, how the seals before it leave a slot
and its fill source, and the statement of the sealed pool for every state. -/

namespace Sys2Proof.Machine

variable {s t : State} {k j : Nat} {sl u : Slot} {ks : List Nat}

/-! ### What seals stage -/

/-- Everything is as it was but for the slots, the queue, and claims that are new. -/
def Staged (s t : State) : Prop :=
  ∃ slots queue a b,
    t = { s with slots := slots, commitQueue := queue, laneA := { s.laneA with claims := s.laneA.claims ++ a },
                 laneB := { s.laneB with claims := s.laneB.claims ++ b } }

theorem Staged.of_pool (slots : List (Option Slot)) (queue : List Nat) :
    Staged s { s with slots := slots, commitQueue := queue } := by
  refine ⟨slots, queue, [], [], ?_⟩
  simp only [List.append_nil]

theorem Staged.refl (s : State) : Staged s s := .of_pool s.slots s.commitQueue

theorem Staged.trans {v : State} (h : Staged s t) (g : Staged t v) : Staged s v := by
  obtain ⟨_, _, a, b, rfl⟩ := h
  obtain ⟨slots, queue, c, d, rfl⟩ := g
  refine ⟨slots, queue, a ++ c, b ++ d, ?_⟩
  simp only [List.append_assoc]

theorem staged_awaiting (s : State) (k : Nat) (sl : Slot) (l : LaneId) : Staged s (s.awaiting k sl l) := by
  cases l
  · refine ⟨s.slots.set k (some { sl with phase := .filling }), s.commitQueue, [.fillRead k], [], ?_⟩
    simp only [List.append_nil]
    rfl
  · refine ⟨s.slots.set k (some { sl with phase := .filling }), s.commitQueue, [], [.fillRead k], ?_⟩
    simp only [List.append_nil]
    rfl

theorem Staged.claims (h : Staged s t) {l : LaneId} {c : Claim} (hc : c ∈ (s.lane l).claims) :
    c ∈ (t.lane l).claims := by
  obtain ⟨_, _, a, b, rfl⟩ := h
  cases l <;> exact List.mem_append_left _ hc

theorem Staged.entry (h : Staged s t) (page : Nat) : t.entry page = s.entry page := by
  obtain ⟨_, _, _, _, rfl⟩ := h
  rfl

theorem Staged.online (h : Staged s t) (l : LaneId) : (t.lane l).online = (s.lane l).online := by
  obtain ⟨_, _, _, _, rfl⟩ := h
  cases l <;> rfl

theorem Staged.copyLane (h : Staged s t) (page : Nat) : t.copyLane page = s.copyLane page := by
  simp only [State.copyLane, h.entry, h.online]

/-! ### One seal -/

theorem State.slots_set_slot (s : State) (k : Nat) : s.slots.set k (s.slot k) = s.slots := by
  by_cases hk : k < s.slots.length
  · have hslot : s.slot k = s.slots[k] := by simp [State.slot, hk]
    rw [hslot, List.set_getElem_self]
  · exact List.set_eq_of_length_le (by omega)

/-- How an OPEN slot stands after its seal: FILLING or SEALED with its page, stamp, origin and bytes. -/
def Slot.SealedFrom (sl u : Slot) : Prop :=
  u.page = sl.page ∧ u.stamp = sl.stamp ∧ u.origin = sl.origin ∧ (u.phase = .filling ∨ u.phase = .sealed)

/-- Every slot's image is 64 bytes long. -/
def State.Sized (s : State) : Prop := ∀ j x, s.slot j = some x → x.cells.length = 64

theorem State.olderComplete_of_fillSource (h : s.fillSource sl = .older u) : s.olderComplete sl = some u := by
  unfold State.fillSource at h
  split at h
  · rename_i older holder
    cases h
    exact holder
  · split at h
    · split at h <;> cases h
    · cases h
    · cases h

theorem State.sealedAs_cells (hsized : s.Sized) (hk : s.slot k = some sl) (hu : s.sealedAs sl = some u) :
    u.cells.length = 64 ∧ ∀ (i : Nat) (b : Byte), sl.cells[i]? = some (some b) → u.cells[i]? = some (some b) := by
  have hlen := hsized k sl hk
  unfold State.sealedAs at hu
  split at hu
  · cases hu
    exact ⟨hlen, fun _ _ h => h⟩
  · obtain ⟨r, hr, rfl⟩ := Option.map_eq_some_iff.mp hu
    have hsrc : r.1.length = 64 := by
      cases hx : s.fillSource sl <;> rw [hx] at hr <;> cases hr
      · rename_i older
        obtain ⟨j, hj⟩ := State.olderComplete_mem (State.olderComplete_of_fillSource hx)
        simp [hsized j older hj]
      · exact length_erasedImage
      · exact length_erasedImage
    exact ⟨by rw [Slot.length_filled]; omega, fun i b h => Slot.filled_keeps_bytes r.2 (by omega) h⟩

/-- A slot that a seal outside the exhaustion condition has changed, as the change of one place of the pool. -/
theorem State.seal_calm (h : s.exhaustion = false) (k : Nat) :
    Staged s (s.seal k) ∧ (s.seal k).slots = s.slots.set k ((s.seal k).slot k) ∧
      (s.seal k).commitQueue =
        s.commitQueue ++ (if (s.slot k).any Slot.isOpen && ((s.seal k).slot k).any (fun x => x.phase == .sealed)
          then [k] else []) := by
  obtain ⟨hclosed, e⟩ | ⟨sl, hk, hopen, ⟨u, hu, -⟩ | ⟨-, p, q, -, e⟩⟩ := s.seal_cases k
  · have hnot : (s.slot k).any Slot.isOpen = false := by cases hk : s.slot k <;> simp_all
    rw [e, hnot]
    exact ⟨.refl s, (s.slots_set_slot k).symm, by simp⟩
  · have hself : (s.joined k u).slot k = some u := State.slot_joined (State.lt_of_slot hk) u
    rw [State.seal_joined h hk hopen hu, hself, hk]
    refine ⟨.of_pool _ _, rfl, ?_⟩
    simp [hopen, (State.sealedAs_spec hu).1, State.joined]
  · have hself : (s.awaiting k sl p.lane).slot k = some { sl with phase := .filling } :=
      State.slot_set_self (s := s) rfl (State.lt_of_slot hk)
    rw [e, hself]
    refine ⟨staged_awaiting .., rfl, ?_⟩
    cases p with | mk l i => cases l <;> simp [State.awaiting, State.post, State.modLane, State.setSlot]

theorem State.slot_seal_calm_of_ne (h : s.exhaustion = false) (hj : j ≠ k) : (s.seal k).slot j = s.slot j :=
  State.slot_set_of_ne (State.seal_calm h k).2.1 hj

theorem State.slot_seal_calm_of_open (h : s.exhaustion = false) (hk : s.slot k = some sl) (hopen : sl.isOpen = true) :
    ∃ u, (s.seal k).slot k = some u ∧ sl.SealedFrom u ∧
      (s.Sized → u.cells.length = 64 ∧
        ∀ (i : Nat) (b : Byte), sl.cells[i]? = some (some b) → u.cells[i]? = some (some b)) := by
  obtain ⟨hclosed, -⟩ | ⟨x, hx, -, hcase⟩ := s.seal_cases k
  · simp [hk, hopen] at hclosed
  · rw [hk] at hx
    cases hx
    obtain ⟨u, hu, -⟩ | ⟨-, p, q, -, e⟩ := hcase
    · obtain ⟨hphase, hpage, hstamp, horigin⟩ := State.sealedAs_spec hu
      rw [State.seal_joined h hk hopen hu]
      exact ⟨u, State.slot_joined (State.lt_of_slot hk) u, ⟨hpage, hstamp, horigin, .inr hphase⟩,
        fun hsized => State.sealedAs_cells hsized hk hu⟩
    · rw [e]
      exact ⟨_, State.slot_set_self (s := s) rfl (State.lt_of_slot hk), ⟨rfl, rfl, rfl, .inl rfl⟩,
        fun hsized => ⟨hsized k sl hk, fun _ _ h => h⟩⟩

theorem State.Sized.seal (hsized : s.Sized) (h : s.exhaustion = false) (k : Nat) : (s.seal k).Sized := by
  intro j x hx
  by_cases hjk : j = k
  · subst hjk
    cases hopen : (s.slot j).any Slot.isOpen with
    | true =>
      obtain ⟨sl, hsl, hopen⟩ := (Option.any_eq_true _ _).mp hopen
      obtain ⟨u, hu, -, hcells⟩ := State.slot_seal_calm_of_open h hsl hopen
      rw [hu] at hx
      cases hx
      exact (hcells hsized).1
    | false =>
      rcases State.slot_seal_of_other (s := s) (k := j) (.inr hopen) with e | e <;> rw [e] at hx
      · cases hx
      · exact hsized j x hx
  · rw [State.slot_seal_calm_of_ne h hjk] at hx
    exact hsized j x hx

/-! ### Seals one after another -/

theorem State.sealEach_calm (h : s.exhaustion = false) (ks : List Nat) : Staged s (s.sealEach ks) ∧
    (∀ j, j ∉ ks → (s.sealEach ks).slot j = s.slot j) ∧ (s.Sized → (s.sealEach ks).Sized) := by
  induction ks generalizing s with
  | nil => exact ⟨.refl s, fun _ _ => rfl, id⟩
  | cons k ks ih =>
    obtain ⟨hstaged, hother, hsized⟩ := ih (State.exhaustion_seal h k)
    refine ⟨(State.seal_calm h k).1.trans hstaged, fun j hj => ?_, fun hs => hsized (hs.seal h k)⟩
    simp only [List.mem_cons, not_or] at hj
    exact (hother j hj.2).trans (State.slot_seal_calm_of_ne h hj.1)

/-- A slot among several that are sealed: the seals before it leave it, those after it leave what its own seal made. -/
theorem State.sealEach_at (h : s.exhaustion = false) (hnodup : ks.Nodup) (hk : k ∈ ks) :
    ∃ pre, (∀ j ∈ pre, j ∈ ks ∧ j ≠ k) ∧ (s.sealEach pre).exhaustion = false ∧ (s.sealEach pre).slot k = s.slot k ∧
      (s.sealEach ks).slot k = ((s.sealEach pre).seal k).slot k ∧
      Staged ((s.sealEach pre).seal k) (s.sealEach ks) := by
  obtain ⟨pre, post, rfl⟩ := List.append_of_mem hk
  obtain ⟨hpre, hpost⟩ : k ∉ pre ∧ k ∉ post := by
    rw [List.nodup_append] at hnodup
    obtain ⟨-, hcons, hdisj⟩ := hnodup
    exact ⟨fun hm => hdisj k hm k List.mem_cons_self rfl, (List.nodup_cons.mp hcons).1⟩
  have hcalm := State.exhaustion_sealEach h pre
  have hsplit : s.sealEach (pre ++ k :: post) = ((s.sealEach pre).seal k).sealEach post := by
    simp [State.sealEach]
  obtain ⟨hstaged, hother, -⟩ := State.sealEach_calm (State.exhaustion_seal hcalm k) post
  rw [hsplit]
  exact ⟨pre, fun j hj => ⟨by simp [hj], fun e => hpre (e ▸ hj)⟩, hcalm, (State.sealEach_calm h pre).2.1 k hpre,
    hother k hpost, hstaged⟩

/-- Seals of other pages' slots do not change what a slot of this page can be filled from. -/
theorem State.olderComplete_sealEach (h : s.exhaustion = false) (hpages : ∀ j ∈ ks, ∀ x, s.slot j = some x →
    x.isOpen = true → x.page ≠ sl.page) : (s.sealEach ks).olderComplete sl = s.olderComplete sl := by
  induction ks generalizing s with
  | nil => rfl
  | cons k ks ih =>
    have hhead : (s.seal k).olderComplete sl = s.olderComplete sl := by
      cases hopen : (s.slot k).any Slot.isOpen with
      | false =>
        rw [State.seal_of_not_open]
        cases hk : s.slot k <;> simp_all
      | true =>
        obtain ⟨x, hx, hopen⟩ := (Option.any_eq_true _ _).mp hopen
        obtain ⟨u, hu, ⟨hpage, -⟩, -⟩ := State.slot_seal_calm_of_open h hx hopen
        have hne := hpages k List.mem_cons_self x hx hopen
        refine State.olderComplete_set (State.seal_calm h k).2.1 (fun y hy => .inr ?_) fun y hy => .inr ?_
        · rw [hx] at hy
          cases hy
          exact hne
        · rw [hu] at hy
          cases hy
          exact hpage ▸ hne
    refine (ih (State.exhaustion_seal h k) fun j hj x hx hopen => ?_).trans hhead
    by_cases hjk : j = k
    · subst hjk
      have hclosed := s.slot_seal_self j
      rw [hx] at hclosed
      simp_all
    · rw [State.slot_seal_calm_of_ne h hjk] at hx
      exact hpages j (List.mem_cons_of_mem _ hj) x hx hopen

/-- Those that are SEALED join the tail in the order of the seals. -/
theorem State.commitQueue_sealEach (h : s.exhaustion = false) (hnodup : ks.Nodup)
    (hopen : ∀ j ∈ ks, (s.slot j).any Slot.isOpen = true) : (s.sealEach ks).commitQueue =
      s.commitQueue ++ ks.filter (fun j => ((s.sealEach ks).slot j).any (fun x => x.phase == .sealed)) := by
  induction ks generalizing s with
  | nil => simp [State.sealEach]
  | cons k ks ih =>
    obtain ⟨hnot, hnodup⟩ := List.nodup_cons.mp hnodup
    have hcalm := State.exhaustion_seal h k
    have hk : (s.sealEach (k :: ks)).slot k = (s.seal k).slot k := (State.sealEach_calm hcalm ks).2.1 k hnot
    have hrest := ih hcalm hnodup fun j hj => by
      rw [State.slot_seal_calm_of_ne h (ne_of_mem_of_not_mem hj hnot)]
      exact hopen j (List.mem_cons_of_mem _ hj)
    rw [List.filter_cons, hk]
    change ((s.seal k).sealEach ks).commitQueue = _
    rw [hrest, (State.seal_calm h k).2.2, hopen k List.mem_cons_self, Bool.true_and, List.append_assoc]
    congr 1
    change _ ++ ks.filter (fun j => ((s.sealEach (k :: ks)).slot j).any _) = _
    split <;> rfl

/-! ### Every OPEN slot sealed (02 R32, R36, R37) -/

theorem State.sealAll_slot_not_open (h : s.exhaustion = false) (hclosed : (s.slot k).any Slot.isOpen = false) :
    s.sealAll.slot k = s.slot k := by
  refine (State.sealEach_calm h _).2.1 k fun hm => ?_
  rw [State.mem_openSlots, hclosed] at hm
  cases hm

/-- An OPEN slot after the seals: staged in the pool as it stood when its turn came. -/
theorem State.sealAll_at (h : s.exhaustion = false) (hk : s.slot k = some sl) (hopen : sl.isOpen = true) :
    ∃ v, Staged s v ∧ v.exhaustion = false ∧ (s.Sized → v.Sized) ∧ v.slot k = some sl ∧
      s.sealAll.slot k = (v.seal k).slot k ∧ Staged (v.seal k) s.sealAll ∧
      ((∀ j x, j ≠ k → s.slot j = some x → x.isOpen = true → x.page ≠ sl.page) →
        v.olderComplete sl = s.olderComplete sl) := by
  have hmem : k ∈ s.openSlots := State.mem_openSlots.mpr (by simp [hk, hopen])
  obtain ⟨pre, hpre, hcalm, hslot, hfate, hafter⟩ := State.sealEach_at h s.nodup_openSlots hmem
  obtain ⟨hstaged, -, hsized⟩ := State.sealEach_calm h pre
  exact ⟨s.sealEach pre, hstaged, hcalm, hsized, hslot.trans hk, hfate, hafter,
    fun hpages => State.olderComplete_sealEach h fun j hj x => hpages j x (hpre j hj).2⟩

/-- A slot that its seal puts into the queue at once stands there as the seal made it. -/
theorem State.sealAll_slot_joined (h : s.exhaustion = false) (hk : s.slot k = some sl) (hopen : sl.isOpen = true)
    (hu : ∀ v, Staged s v → ((∀ j x, j ≠ k → s.slot j = some x → x.isOpen = true → x.page ≠ sl.page) →
      v.olderComplete sl = s.olderComplete sl) → v.sealedAs sl = some u) : s.sealAll.slot k = some u := by
  obtain ⟨v, hstaged, hcalm, -, hv, hfate, -, holder⟩ := State.sealAll_at h hk hopen
  rw [hfate, State.seal_joined hcalm hv hopen (hu v hstaged holder), State.slot_joined (State.lt_of_slot hv)]

theorem State.sealAll_slot_open (h : s.exhaustion = false) (hk : s.slot k = some sl) (hopen : sl.isOpen = true) :
    ∃ u, s.sealAll.slot k = some u ∧ sl.SealedFrom u ∧
      (s.Sized → ∀ (i : Nat) (b : Byte), sl.cells[i]? = some (some b) → u.cells[i]? = some (some b)) := by
  obtain ⟨v, -, hcalm, hsized, hv, hfate, -⟩ := State.sealAll_at h hk hopen
  obtain ⟨u, hu, hfrom, hcells⟩ := State.slot_seal_calm_of_open hcalm hv hopen
  exact ⟨u, hfate.trans hu, hfrom, fun hs => (hcells (hsized hs)).2⟩

theorem State.sealAll_awaits {l : LaneId} (h : s.exhaustion = false) (hk : s.slot k = some sl) (hopen : sl.isOpen = true)
    (hfull : sl.full = false) (hpages : ∀ j x, j ≠ k → s.slot j = some x → x.isOpen = true → x.page ≠ sl.page)
    (hnone : s.olderComplete sl = none) (hl : s.copyLane sl.page = some l) :
    s.sealAll.slot k = some { sl with phase := .filling } ∧ .fillRead k ∈ (s.sealAll.lane l).claims := by
  obtain ⟨v, hstaged, hcalm, -, hv, hfate, hafter, holder⟩ := State.sealAll_at h hk hopen
  obtain ⟨p, q, hsrc, rfl⟩ := State.fillSource_of_copyLane ((holder hpages).trans hnone)
    ((hstaged.copyLane sl.page).trans hl)
  rw [State.seal_of_copy hv hopen hfull hsrc] at hfate hafter
  refine ⟨hfate.trans (State.slot_set_self (s := v) rfl (State.lt_of_slot hv)), hafter.claims ?_⟩
  cases p with | mk l i => cases l <;> simp [State.awaiting, State.post, State.modLane, State.lane]

theorem State.sealAll_joined (h : s.exhaustion = false) : ∃ joined, s.sealAll.commitQueue = s.commitQueue ++ joined ∧
    joined.Nodup ∧ (∀ k, k ∈ joined ↔
      (s.slot k).any Slot.isOpen = true ∧ (s.sealAll.slot k).any (fun sl => sl.phase == .sealed) = true) ∧
    joined.Pairwise (fun j k => ∀ x, s.slot j = some x → ∀ y, s.slot k = some y → x.stamp ≤ y.stamp) := by
  refine ⟨_, State.commitQueue_sealEach h s.nodup_openSlots fun j hj => State.mem_openSlots.mp hj,
    s.nodup_openSlots.filter _, fun k => ?_, s.openSlots_pairwise.filter _⟩
  rw [List.mem_filter, State.mem_openSlots]
  exact .rfl

/-- The pool after every OPEN slot is sealed, for every state. -/
theorem State.poolSealed_sealAll (s : State) : s.sealAll.PoolSealed s (fun sl => sl) := by
  refine ⟨(sealing_sealAll s).free, fun h => ⟨fun k sl hk => ⟨fun hclosed => ?_, fun hopen => ⟨?_, fun hfull => ?_,
    fun hfull hpages => ⟨fun older hsome => ?_, fun hnone hentry => ?_, fun hnone l hl =>
      State.sealAll_awaits h hk hopen hfull hpages hnone hl, fun hnone hentry hl => ?_⟩⟩⟩, State.sealAll_joined h⟩,
    fun h => ?_⟩
  · rw [State.sealAll_slot_not_open h (by simp [hk, hclosed]), hk]
  · obtain ⟨u, hu, ⟨hpage, hstamp, horigin, hphase⟩, hcells⟩ := State.sealAll_slot_open h hk hopen
    exact ⟨u, hu, hpage, hstamp, horigin, hphase, hcells⟩
  · exact State.sealAll_slot_joined h hk hopen fun v _ _ => State.sealedAs_of_full hfull
  · refine State.sealAll_slot_joined h hk hopen fun v _ holder => ?_
    exact State.sealedAs_of_source hfull (State.fillSource_of_older ((holder hpages).trans hsome)) rfl
  · refine State.sealAll_slot_joined h hk hopen fun v hv holder => ?_
    exact State.sealedAs_of_source hfull (State.fillSource_of_unmapped ((holder hpages).trans hnone)
      ((hv.entry _).trans hentry)) rfl
  · refine State.sealAll_slot_joined h hk hopen fun v hv holder => ?_
    exact State.sealedAs_of_source hfull (State.fillSource_of_no_copy ((holder hpages).trans hnone)
      ((hv.entry _).symm ▸ hentry) ((hv.copyLane _).trans hl)) rfl
  · obtain ⟨hqueue, hopened, hother⟩ := State.sealEach_of_exhaustion h s.openSlots
    refine ⟨hqueue, fun k sl hk => ⟨fun hclosed hq => ?_, fun hopen => ?_⟩⟩
    · exact (hother k (by simp [hk, hclosed]) hq).trans hk
    · exact hopened k (State.mem_openSlots.mpr (by simp [hk, hopen])) sl hk hopen

/-- A pool that is sealed stays so when its slots are marked and claims other than those of fill reads change. -/
theorem State.PoolSealed.marked {w : State} {mark : Slot → Slot} (h : w.PoolSealed s (fun sl => sl))
    (hslots : ∀ k, t.slot k = (w.slot k).map mark) (hqueue : t.commitQueue = w.commitQueue)
    (hclaims : ∀ k l, .fillRead k ∈ (w.lane l).claims → .fillRead k ∈ (t.lane l).claims)
    (hphase : ∀ x : Slot, (mark x).phase = x.phase) : t.PoolSealed s mark := by
  have hsome : ∀ {k : Nat} {x : Slot}, w.slot k = some x → t.slot k = some (mark x) := fun hx => by
    rw [hslots, hx]
    rfl
  have hnone : ∀ {k : Nat}, w.slot k = none → t.slot k = none := fun hx => by
    rw [hslots, hx]
    rfl
  have hsealed : ∀ k, (t.slot k).any (fun sl => sl.phase == .sealed) = (w.slot k).any (fun sl => sl.phase == .sealed) :=
    fun k => by
      rw [hslots]
      cases w.slot k <;> simp [hphase]
  obtain ⟨hfree, hcalm, hexh⟩ := h
  refine ⟨fun k hk => hnone (hfree k hk), fun he => ?_, fun he => ?_⟩
  · obtain ⟨hfates, joined, hjoin, hnodup, hmem, hsorted⟩ := hcalm he
    refine ⟨fun k sl hk => ?_, joined, hqueue.trans hjoin, hnodup, fun k => ?_, hsorted⟩
    · obtain ⟨hclosed, hopened⟩ := hfates k sl hk
      refine ⟨fun hc => hsome (hclosed hc), fun ho => ?_⟩
      obtain ⟨⟨u, hu, hkept⟩, hfull, hfill⟩ := hopened ho
      refine ⟨⟨u, hsome hu, hkept⟩, fun hf => hsome (hfull hf), fun hf hpages => ?_⟩
      obtain ⟨holder, herased, hcopy, hlost⟩ := hfill hf hpages
      exact ⟨fun older ho => hsome (holder older ho), fun hn hu => hsome (herased hn hu),
        fun hn l hl => (hcopy hn l hl).imp hsome (hclaims k l), fun hn hu hl => hsome (hlost hn hu hl)⟩
    · rw [hsealed]
      exact hmem k
  · obtain ⟨hq, hfates⟩ := hexh he
    refine ⟨hqueue ▸ hq, fun k sl hk => ?_⟩
    obtain ⟨hclosed, hopened⟩ := hfates k sl hk
    exact ⟨fun hc hq => hsome (hclosed hc hq), fun ho => (hopened ho).imp hnone hsome⟩

end Sys2Proof.Machine
end

section
/-! PROOFS. REMOUNT accepted: the frame is taken, the port answers a read in progress RETRY, the mount begins on cleared
lanes, and the end of the step posts no claim. -/

namespace Sys2Proof.Machine

variable {s : State}

/-! ### A frame without parameters is taken (11 R160, R161) -/

/-- A listening port takes a frame that is not refused, and with an empty link the step ends with the refresh. -/
theorem State.exchange_taken (h : s.Listening) {after : State} (hlink : after.link = []) :
    s.exchange 0 none after = .next after.refresh := by
  obtain ⟨⟨halive, -⟩, hserial⟩ := h
  simp [State.exchange, State.takesFrame, halive, hserial, settle_of_quiet hlink]

theorem State.longRefusal_none (hlong : s.longCmd = none) (hmode : s.mode ≠ .mounting) :
    frameRefusal 0 true s.longBusy s.mounting false = none := by
  simp [frameRefusal, Config.maxParams, State.longBusy, hlong, State.mounting, hmode]

/-! ### The start of a mount (09 R138) -/

theorem getD_freshPages (g : Geometry) (p : PPage) : (freshPages g p.lane).getD p.index freshPage = initialRecord p := by
  obtain ⟨l, i⟩ := p
  cases l with
  | a =>
    match i with
    | 0 => rfl
    | 1 => rfl
    | i + 2 =>
      have hother : initialRecord { lane := .a, index := i + 2 } = freshPage := by simp [initialRecord, freshPage]
      rw [hother]
      exact (List.getD_eq_getElem?_getD ..).trans (List.getElem?_getD_replicate_default_eq ..)
  | b =>
    have hother : initialRecord { lane := .b, index := i } = freshPage := by simp [initialRecord, freshPage]
    rw [hother]
    simp only [freshPages]
    split
    · exact (List.getD_eq_getElem?_getD ..).trans (List.getElem?_getD_replicate_default_eq ..)
    · rfl

theorem length_freshPages (g : Geometry) (l : LaneId) :
    (freshPages g l).length = if g.has l then g.pagesPerLane else 0 := by
  have htwo : 2 ≤ g.pagesPerLane := by
    unfold Geometry.pagesPerLane
    split <;> omega
  cases l
  · simp only [freshPages, Geometry.has, List.length_cons, List.length_replicate, if_true]
    omega
  · simp only [freshPages, Geometry.has]
    split <;> simp [*]

theorem State.withdrawHostReads_eq (s : State) : ∃ a b,
    s.withdrawHostReads = { s with laneA := { s.laneA with claims := a }, laneB := { s.laneB with claims := b } } := by
  rw [State.withdrawHostReads, State.withdrawBoth_eq, State.withdrawBoth_eq]
  exact ⟨_, _, rfl⟩

/-- The port's part in the start of a mount: a read in progress ends, and no lane changes but in its claims. -/
theorem State.endReadAtMount_spec (s : State) : ∃ port answers stats a b,
    s.endReadAtMount = { s with port := port, answers := answers, stats := stats,
                                laneA := { s.laneA with claims := a }, laneB := { s.laneB with claims := b } } ∧
      ((∃ ps, s.port = .reading ps) → port = .idle ∧ answers = s.answers ++ [.retry]) ∧
      ((∀ ps, s.port ≠ .reading ps) → port = s.port ∧ answers = s.answers) := by
  unfold State.endReadAtMount
  split
  · rename_i ps hport
    obtain ⟨a, b, h⟩ := s.withdrawHostReads_eq
    rw [h]
    exact ⟨.idle, _, _, a, b, rfl, fun _ => ⟨rfl, rfl⟩, fun hno => absurd hport (hno ps)⟩
  · rename_i hport
    exact ⟨s.port, s.answers, s.stats, s.laneA.claims, s.laneB.claims, rfl, fun ⟨ps, h⟩ => absurd h (hport ps),
      fun _ => ⟨rfl, rfl⟩⟩

/-- A lane that begins its remount differs from the one before in what `Lane.remounted` sets, whatever its claims. -/
theorem Lane.remounted_claims (x : Lane) (cs : List Claim) (g : Geometry) (l : LaneId) :
    ({ x with claims := cs }).remounted g l = x.remounted g l := rfl

theorem Op.outlives_of {o : Op} (h : o.isRead = true ∨ o.markPage.isSome = true) : o.outlives = true := by
  cases o <;> simp_all [Op.isRead, Op.markPage, Op.outlives]

theorem Lane.remounted_op {x : Lane} {o : Op} (hop : x.op = some o) (h : o.isRead = true ∨ o.markPage.isSome = true)
    (g : Geometry) (l : LaneId) : (x.remounted g l).op = some o ∧ (x.remounted g l).awaitReady = x.awaitReady ∧
      (x.remounted g l).discard = true := by
  simp [Lane.remounted, hop, Op.outlives_of h]

/-- Outside RUN a state with no claims and empty free lists settles to itself but for the two lines. -/
theorem State.refresh_of_bare (hmode : s.mode ≠ .run) (hbare : ∀ l, (s.lane l).claims = [] ∧ (s.lane l).freeList = []) :
    s.refresh = s.refreshLines := by
  have hcommit : ∀ l, s.refreshCommit l = s := fun l => by
    obtain ⟨hclaims, hfree⟩ := hbare l
    have hnone : s.commitQueue.any (s.eligible l) = false := by
      refine List.any_eq_false.mpr fun k _ => ?_
      unfold State.eligible
      split
      · simp
      · simp [hfree]
    simp [State.refreshCommit, hnone, hclaims]
  have hmark : ∀ l, s.refreshMark l = s := fun l => by
    simp [State.refreshMark, State.wantsMark, hmode, (hbare l).1]
  have hreloc : s.refreshReloc = s := by
    have hwait : s.laneA.relocWaits = false ∧ s.laneB.relocWaits = false := by
      have ha : s.laneA.claims = [] := (hbare .a).1
      have hb : s.laneB.claims = [] := (hbare .b).1
      simp [Lane.relocWaits, ha, hb]
    simp [State.refreshReloc, hwait.1, hwait.2, State.relocAllowed, hmode]
  simp only [State.refresh, hcommit, hmark, hreloc]

/-! ### REMOUNT (09 R138, 11 R165) -/

theorem exec_remount (h : s.Listening) (hlong : s.longCmd = none) (hmode : s.mode = .drained)
    (hmaint : s.causes.maintenance = true) (hlink : (s.accept .remount).beginRemount.link = []) :
    exec (.remount []) s = .next (s.accept .remount).beginRemount.refresh := by
  have hnone : frameRefusal 0 true s.longBusy s.notQuiesced false = none := by
    simp [frameRefusal, Config.maxParams, State.longBusy, hlong, State.notQuiesced, hmode, hmaint]
  change s.exchange 0 (frameRefusal 0 true s.longBusy s.notQuiesced false) _ = _
  rw [hnone, State.exchange_taken h hlink]

/-- The state in which the mount begins, field by field. -/
theorem State.beginRemount_spec (s : State) : ∃ port answers stats,
    s.beginRemount = { s with port := port, answers := answers, stats := stats, mode := .mounting,
                              mount := some (freshMount s.geometry), remap := List.replicate s.cfg.capacity .unmapped,
                              laneA := s.laneA.remounted s.geometry .a, laneB := s.laneB.remounted s.geometry .b,
                              relocList := [], timer := none } ∧
      ((∃ ps, s.port = .reading ps) → port = .idle ∧ answers = s.answers ++ [.retry]) ∧
      ((∀ ps, s.port ≠ .reading ps) → port = s.port ∧ answers = s.answers) := by
  obtain ⟨port, answers, stats, a, b, h, hread, hother⟩ := s.endReadAtMount_spec
  refine ⟨port, answers, stats, ?_, hread, hother⟩
  rw [State.beginRemount, h]
  simp only [Lane.remounted_claims]

/-- The state in which the mount of a REMOUNT begins, with its two lines, for what the port makes of a read. -/
def State.remounting (s : State) (port : Port) (answers : List HostAnswer) (stats : Stats) : State :=
  ({ s.accept .remount with
      port := port, answers := answers, stats := stats, mode := .mounting, mount := some (freshMount s.geometry)
      remap := List.replicate s.cfg.capacity .unmapped, laneA := s.laneA.remounted s.geometry .a
      laneB := s.laneB.remounted s.geometry .b, relocList := [], timer := none } : State).refreshLines

theorem State.remounting_lane (s : State) (port : Port) (answers : List HostAnswer) (stats : Stats) (l : LaneId) :
    ((s.remounting port answers stats).lane l) = (s.lane l).remounted s.geometry l := by
  cases l <;> rfl

theorem remount_accepted (h : s.Listening) (hlong : s.longCmd = none) (hmode : s.mode = .drained)
    (hmaint : s.causes.maintenance = true) : ∃ port answers stats,
      exec (.remount []) s = .next (s.remounting port answers stats) ∧
      ((∃ ps, s.port = .reading ps) → port = .idle ∧ answers = s.answers ++ [.retry]) ∧
      ((∀ ps, s.port ≠ .reading ps) → port = s.port ∧ answers = s.answers) := by
  obtain ⟨port, answers, stats, he, hread, hother⟩ := (s.accept .remount).beginRemount_spec
  refine ⟨port, answers, stats, ?_, hread, hother⟩
  rw [exec_remount h hlong hmode hmaint (by rw [he]; exact h.1.2), State.refresh_of_bare, he]
  · rfl
  · rw [he]
    simp
  · intro l
    rw [he]
    cases l <;> exact ⟨rfl, rfl⟩

end Sys2Proof.Machine
end

section
/-! PROOFS. FLUSH and QUIESCE accepted: the state after the seals, the marks or the drain, and the end of the step. -/

namespace Sys2Proof.Machine

variable {s t : State}

/-! ### What seals and the end of a step leave -/

theorem SealsOnly.frame (h : SealsOnly s t) : t.serial = s.serial ∧ t.causes = s.causes ∧ t.remap = s.remap ∧
    t.cfg = s.cfg ∧ t.seq = s.seq ∧ t.link = s.link := by
  obtain ⟨_, _, _, _, _, _, _, _, _, _, _, _, rfl⟩ := h
  exact ⟨rfl, rfl, rfl, rfl, rfl, rfl⟩

theorem LaneSettled.mem_claims {x y : Lane} (h : LaneSettled x y) {c : Claim} (hc : c.kept = false) :
    c ∈ y.claims ↔ c ∈ x.claims := by
  obtain ⟨claims, rfl, hkept⟩ := h
  have hmem := congrArg (c ∈ ·) hkept
  simpa [List.mem_filter, hc] using hmem

theorem Settled.mem_claims (h : Settled s t) {c : Claim} (hc : c.kept = false) (l : LaneId) :
    c ∈ (t.lane l).claims ↔ c ∈ (s.lane l).claims := by
  obtain ⟨a, b, n, rfl, ha, hb, -⟩ := h
  cases l
  · exact ha.mem_claims hc
  · exact hb.mem_claims hc

theorem Staged.frame (h : Staged s t) : t.port = s.port ∧ t.answers = s.answers ∧ t.stats = s.stats ∧
    t.notices = s.notices ∧ t.longCmd = s.longCmd := by
  obtain ⟨_, _, _, _, rfl⟩ := h
  exact ⟨rfl, rfl, rfl, rfl, rfl⟩

theorem PoolOnly.lane (h : PoolOnly s t) (l : LaneId) : t.lane l = s.lane l := by
  obtain ⟨_, _, _, _, _, _, _, _, _, _, rfl⟩ := h
  cases l <;> rfl

theorem State.allFree_congr (h : ∀ k, t.slot k = none ↔ s.slot k = none) : t.allFree = s.allFree := by
  rw [Bool.eq_iff_iff, State.allFree_iff, State.allFree_iff]
  exact forall_congr' h

/-! ### The marks of a FLUSH (02 R36) -/

theorem State.slot_markFlush (s : State) (k : Nat) :
    s.markFlush.slot k = (s.slot k).map (fun sl => { sl with flushMark := true }) := by
  simp only [State.slot, State.markFlush, List.getElem?_map]
  cases s.slots[k]? <;> rfl

theorem State.allFree_markFlush (s : State) : s.markFlush.allFree = s.allFree :=
  State.allFree_congr fun k => by simp [State.slot_markFlush]

theorem State.noFlushEnds_of_unmarked (h : s.anyFlushMark = false) : s.NoFlushEnds := by
  refine .inr fun k sl hk => ?_
  have hnone := List.any_eq_false.mp h _ (List.mem_of_getElem? (State.slot_eq_some_iff.mp hk))
  simpa using hnone

theorem State.startFlush_eq (s : State) : s.startFlush =
    if s.sealAll.allFree then s.sealAll.markFlush.finishLong resultOk none else s.sealAll.markFlush := by
  simp only [State.startFlush, State.allFree_markFlush]

/-- The end of a FLUSH or its pending mark, beside what the seals left. -/
theorem State.startFlush_spec (s : State) :
    PoolOnly s.sealAll s.startFlush ∧ s.startFlush.slots = s.sealAll.markFlush.slots ∧
      s.startFlush.commitQueue = s.sealAll.commitQueue ∧ s.startFlush.port = s.sealAll.port ∧
      s.startFlush.answers = s.sealAll.answers ∧ s.startFlush.stats = s.sealAll.stats ∧
      s.startFlush.mode = s.sealAll.mode ∧
      s.startFlush.longCmd = (if s.sealAll.allFree then none else s.sealAll.longCmd) ∧
      (s.sealAll.allFree = false → s.startFlush.notices = s.sealAll.notices) := by
  have hmarked : PoolOnly s.sealAll s.sealAll.markFlush := ⟨_, _, _, _, _, _, _, _, _, _, rfl⟩
  rw [State.startFlush_eq]
  split
  · rename_i hfree
    exact ⟨hmarked.trans (poolOnly_finishLong ..), by simp, by simp [State.markFlush], by simp [State.markFlush],
      by simp [State.markFlush], by simp [State.markFlush], by simp [State.markFlush], by simp,
      fun h => by rw [h] at hfree; cases hfree⟩
  · exact ⟨hmarked, rfl, rfl, rfl, rfl, rfl, rfl, rfl, fun _ => rfl⟩

theorem State.openSlots_eq_nil_iff : s.openSlots = [] ↔ ∀ k, (s.slot k).any Slot.isOpen = false := by
  rw [List.eq_nil_iff_forall_not_mem]
  simp only [State.mem_openSlots, Bool.not_eq_true]

theorem State.sealAll_of_allFree (h : s.allFree = true) : s.sealAll = s := by
  have hnone : s.openSlots = [] := State.openSlots_eq_nil_iff.mpr fun k => by rw [State.allFree_iff.mp h k]; rfl
  rw [State.sealAll, hnone]
  rfl

theorem State.startFlush_notices {c : LongCmd} (h : s.allFree = true) (hlong : s.longCmd = some c)
    (hroom : s.notices.length < 32) : s.startFlush.notices = s.notices ++ [s.doneNotice c resultOk none] := by
  rw [State.startFlush_eq, State.sealAll_of_allFree h, h]
  exact State.finishLong_notices (s := s.markFlush) hlong hroom _ _

theorem exec_flush (h : s.Listening) (hlong : s.longCmd = none) (hmode : s.mode ≠ .mounting)
    (hlink : (s.accept (.flush false)).startFlush.link = []) :
    exec (.flush []) s = .next (s.accept (.flush false)).startFlush.refresh := by
  change s.exchange 0 (frameRefusal 0 true s.longBusy s.mounting false) _ = _
  rw [State.longRefusal_none hlong hmode, State.exchange_taken h hlink]

/-- A pool that is marked after its seals, seen from the end of the step. -/
theorem State.poolSealed_startFlush (s : State) (h : Settled s.startFlush t) :
    t.PoolSealed s (fun sl => { sl with flushMark := true }) := by
  obtain ⟨honly, hslots, hqueue, -⟩ := s.startFlush_spec
  have ht : t.slots = s.startFlush.slots ∧ t.commitQueue = s.startFlush.commitQueue := by
    obtain ⟨_, _, _, rfl, -⟩ := h
    exact ⟨rfl, rfl⟩
  refine s.poolSealed_sealAll.marked (fun k => ?_) (ht.2.trans hqueue) (fun k l hc => ?_) fun _ => rfl
  · rw [State.slot_congr (ht.1.trans hslots), State.slot_markFlush]
  · rw [h.mem_claims rfl, honly.lane]
    exact hc

theorem staged_sealAll (h : s.exhaustion = false) : Staged s s.sealAll := (State.sealEach_calm h _).1

/-- Outside the exhaustion condition no seal takes a slot out of the pool. -/
theorem State.allFree_sealAll (h : s.exhaustion = false) : s.sealAll.allFree = s.allFree := by
  refine State.allFree_congr fun k => ⟨fun hgone => ?_, (sealing_sealAll s).free k⟩
  cases hk : s.slot k with
  | none => rfl
  | some sl =>
    cases hopen : sl.isOpen with
    | false =>
      rw [State.sealAll_slot_not_open h (by simp [hk, hopen]), hk] at hgone
      cases hgone
    | true =>
      obtain ⟨u, hu, -⟩ := State.sealAll_slot_open h hk hopen
      rw [hu] at hgone
      cases hgone

/-- A FLUSH is still pending after its own seals where no departure completes it. -/
theorem State.sealAll_longCmd_of_flush {lost : Bool} (hlong : s.longCmd = some (.flush lost))
    (h : s.anyFlushMark = false ∨ s.exhaustion = false) : s.sealAll.longCmd = some (.flush lost) := by
  rcases h with hunmarked | hcalm
  · rcases ((sealing_sealAll s).long (State.noFlushEnds_of_unmarked hunmarked)).1 with e | ⟨-, -, e⟩
    · exact e.trans hlong
    · rw [hlong] at e
      cases e
  · obtain ⟨-, -, -, -, e⟩ := (staged_sealAll hcalm).frame
    exact e.trans hlong

end Sys2Proof.Machine
end

section
/-! PROOFS. FLUSH and QUIESCE accepted, second part: MAINTENANCE joins the drain cause set, the drain starts where the set
was empty, and the command ends where the mode is DRAINED. -/

namespace Sys2Proof.Machine

variable {s t : State}

/-! ### The start of a drain (10 R155) -/

theorem State.withdraw_mem_claims (s : State) (m l : LaneId) (c d : Claim) :
    d ∈ ((s.withdraw m c).lane l).claims ↔ d ∈ (s.lane l).claims ∧ (m = l → d ≠ c) := by
  cases m <;> cases l <;> simp [State.withdraw, State.modLane, State.lane]

theorem State.withdrawBoth_mem_claims (s : State) (l : LaneId) (c d : Claim) :
    d ∈ ((s.withdrawBoth c).lane l).claims ↔ d ∈ (s.lane l).claims ∧ d ≠ c := by
  rw [State.withdrawBoth, State.withdraw_mem_claims, State.withdraw_mem_claims]
  cases l <;> simp

theorem State.withdrawPatrol_mem_claims (s : State) (l : LaneId) (d : Claim) :
    d ∈ (s.withdrawPatrol.lane l).claims ↔ d ∈ (s.lane l).claims ∧ d ≠ .patrolRead := by
  unfold State.withdrawPatrol
  split
  · exact (s.withdrawBoth_mem_claims l .patrolRead d)
  · rename_i h
    simp only [Bool.or_eq_true, List.contains_iff_mem, not_or] at h
    obtain ⟨ha, hb⟩ := h
    refine ⟨fun hd => ⟨hd, fun e => ?_⟩, And.left⟩
    subst e
    cases l
    · exact ha hd
    · exact hb hd

theorem State.withdrawPatrol_eq (s : State) : ∃ a b r, s.withdrawPatrol =
    { s with laneA := { s.laneA with claims := a }, laneB := { s.laneB with claims := b }, patrolRead := r } := by
  unfold State.withdrawPatrol
  split
  · exact ⟨_, _, _, by rw [State.withdrawBoth_eq]⟩
  · exact ⟨s.laneA.claims, s.laneB.claims, s.patrolRead, rfl⟩

/-- What the start of a drain leaves: the seals, the mode judged on the pool, and the claims but for the background
reads. -/
theorem State.drainStart_spec (s : State) : ∃ a b r, s.drainStart =
      { s.sealAll with mode := s.sealAll.modeNow, timer := none, laneA := { s.sealAll.laneA with claims := a }
                       laneB := { s.sealAll.laneB with claims := b }, patrolRead := r } ∧
    ∀ l c, c ∈ (s.drainStart.lane l).claims ↔
      (c ∈ (s.sealAll.lane l).claims ∧ c ≠ .relocationRead) ∧ c ≠ .patrolRead := by
  obtain ⟨a, b, r, he⟩ := (({ s.sealAll with mode := s.sealAll.modeNow, timer := none } : State).withdrawBoth
    .relocationRead).withdrawPatrol_eq
  refine ⟨a, b, r, he.trans ?_, fun l c => ?_⟩
  · rw [State.withdrawBoth_eq]
  · rw [State.drainStart, State.withdrawPatrol_mem_claims, State.withdrawBoth_mem_claims]
    cases l <;> rfl

/-! ### The end of a QUIESCE (10 R158) -/

theorem State.quiesceCheck_timer (s : State) : s.quiesceCheck.timer = s.timer := by
  obtain ⟨_, _, _, _, _, _, _, _, _, _, h⟩ := poolOnly_quiesceCheck s
  rw [h]

theorem State.quiesceCheck_frame (s : State) : s.quiesceCheck.serial = s.serial ∧ s.quiesceCheck.causes = s.causes ∧
    s.quiesceCheck.remap = s.remap ∧ s.quiesceCheck.cfg = s.cfg ∧ s.quiesceCheck.seq = s.seq ∧
    s.quiesceCheck.link = s.link :=
  (poolOnly_quiesceCheck s).sealsOnly.frame

theorem State.quiesceCheck_pending (hmaint : s.causes.maintenance = true)
    (h : s.longCmd = some .quiesce ∨ (s.longCmd = none ∧ s.mode = .drained)) :
    s.quiesceCheck.longCmd = if s.mode = .drained then none else some .quiesce := by
  rcases h with h | ⟨h, hmode⟩
  · by_cases hmode : s.mode = .drained <;> simp [State.quiesceCheck, h, hmode, hmaint]
  · simp [State.quiesceCheck, h, hmode]

theorem State.quiesceCheck_of_mode (h : s.mode ≠ .drained) : s.quiesceCheck = s := by
  simp [State.quiesceCheck, h]

theorem State.quiesceCheck_notices (hlong : s.longCmd = some .quiesce) (hmode : s.mode = .drained)
    (hmaint : s.causes.maintenance = true) (hroom : s.notices.length < 32) :
    s.quiesceCheck.notices = s.notices ++ [s.doneNotice .quiesce resultOk none] := by
  rw [State.quiesceCheck, if_pos ⟨hlong, hmode, hmaint⟩]
  exact State.finishLong_notices hlong hroom _ _

/-! ### MAINTENANCE joins the drain cause set (10 R158) -/

/-- The state in which a QUIESCE is judged: accepted, with MAINTENANCE in the set. -/
def State.quiescing (s : State) : State :=
  { s.accept .quiesce with causes := { s.causes with maintenance := true } }

theorem State.setCauses_quiesce (hmode : s.mode ≠ .mounting) :
    (s.accept .quiesce).setCauses { s.causes with maintenance := true } =
      if s.causes.any then s.quiescing else s.quiescing.drainStart := by
  have hmode' : (s.accept .quiesce).mode ≠ .mounting := hmode
  have hany : (s.accept .quiesce).causes.any = s.causes.any := rfl
  have hnew : ({ s.causes with maintenance := true } : Causes).any = true := by simp [Causes.any]
  cases h : s.causes.any <;> simp [State.setCauses, hmode', hany, h, hnew, State.quiescing]

/-- A drain that starts with a QUIESCE pending: what the frame of the seals leaves, and the command pending but where the
pool ran empty under the seals. -/
theorem State.drainStart_quiescing (s : State) :
    s.quiescing.drainStart.mode = (if s.quiescing.drainStart.allFree then .drained else .draining) ∧
      (s.quiescing.drainStart.longCmd = some .quiesce ∨
        (s.quiescing.drainStart.longCmd = none ∧ s.quiescing.drainStart.mode = .drained)) := by
  have hsealing := sealing_sealAll s.quiescing
  obtain ⟨-, hcauses, -⟩ := hsealing.only.frame
  have hany : s.quiescing.sealAll.causes.any = true := by rw [hcauses]; simp [State.quiescing, Causes.any]
  obtain ⟨a, b, r, he, -⟩ := s.quiescing.drainStart_spec
  have hmode : s.quiescing.sealAll.modeNow = if s.quiescing.sealAll.allFree then .drained else .draining := by
    simp [State.modeNow, hany]
  rw [he]
  refine ⟨hmode, ?_⟩
  rcases (hsealing.long (.inl fun lost => by simp [State.quiescing, State.accept])).1 with h | ⟨h, hfree, -⟩
  · exact .inl h
  · exact .inr ⟨h, hmode.trans (by rw [hfree]; rfl)⟩

/-- The state before the check that ends a QUIESCE, whether or not a drain starts with it. -/
theorem State.quiesce_begun (hmode : s.mode ≠ .mounting) :
    ∃ y, (s.accept .quiesce).startQuiesce = y.quiesceCheck ∧
      (y.serial = (s.replied 0x02 [] false).serial ∧ y.causes = { s.causes with maintenance := true } ∧
        y.remap = s.remap ∧ y.cfg = s.cfg ∧ y.seq = s.seq ∧ y.link = s.link) ∧
      (s.causes.any = false → y = s.quiescing.drainStart) ∧ (s.causes.any = true → y = s.quiescing) ∧
      (y.longCmd = some .quiesce ∨ (y.longCmd = none ∧ y.mode = .drained)) ∧
      (s.exhaustion = false → y.port = s.port ∧ y.answers = s.answers ∧ y.stats = s.stats ∧ y.notices = s.notices ∧
        y.longCmd = some .quiesce) := by
  have hbegin : (s.accept .quiesce).startQuiesce = State.quiesceCheck
      (if s.causes.any then s.quiescing else s.quiescing.drainStart) := by
    rw [← State.setCauses_quiesce hmode]
    rfl
  cases hany : s.causes.any with
  | true =>
    rw [hany] at hbegin
    exact ⟨s.quiescing, hbegin, ⟨rfl, rfl, rfl, rfl, rfl, rfl⟩, (by simp), fun _ => rfl, .inl rfl,
      fun _ => ⟨rfl, rfl, rfl, rfl, rfl⟩⟩
  | false =>
    rw [hany] at hbegin
    refine ⟨s.quiescing.drainStart, hbegin, ?_, fun _ => rfl, (by simp), s.drainStart_quiescing.2, fun he => ?_⟩
    · obtain ⟨a, b, r, hstart, -⟩ := s.quiescing.drainStart_spec
      rw [hstart]
      exact (sealing_sealAll s.quiescing).only.frame
    · obtain ⟨a, b, r, hstart, -⟩ := s.quiescing.drainStart_spec
      rw [hstart]
      exact (staged_sealAll (s := s.quiescing) he).frame

theorem exec_quiesce (h : s.Listening) (hlong : s.longCmd = none) (hmode : s.mode ≠ .mounting)
    (hlink : (s.accept .quiesce).startQuiesce.link = []) :
    exec (.quiesce []) s = .next (s.accept .quiesce).startQuiesce.refresh := by
  change s.exchange 0 (frameRefusal 0 true s.longBusy s.mounting false) _ = _
  rw [State.longRefusal_none hlong hmode, State.exchange_taken h hlink]

/-- The pool of a drain that starts, seen from the end of the step. -/
theorem State.poolSealed_drain (s : State) (h : Settled s.quiescing.drainStart.quiesceCheck t) :
    t.openSlots = [] ∧ t.PoolSealed s (fun sl => sl) := by
  obtain ⟨a, b, r, hstart, hclaims⟩ := s.quiescing.drainStart_spec
  have hkept : t.slots = s.quiescing.drainStart.quiesceCheck.slots ∧
      t.commitQueue = s.quiescing.drainStart.quiesceCheck.commitQueue := by
    obtain ⟨_, _, _, rfl, -⟩ := h
    exact ⟨rfl, rfl⟩
  have ht : t.slots = s.quiescing.sealAll.slots ∧ t.commitQueue = s.quiescing.sealAll.commitQueue := by
    rw [State.quiesceCheck_slots, State.quiesceCheck_queue, hstart] at hkept
    exact hkept
  have hpool : t.PoolSealed s.quiescing (fun sl => sl) := by
    refine s.quiescing.poolSealed_sealAll.marked (fun k => ?_) ht.2 (fun k l hc => ?_) fun _ => rfl
    · rw [State.slot_congr ht.1]
      cases s.quiescing.sealAll.slot k <;> rfl
    · rw [h.mem_claims rfl, (poolOnly_quiesceCheck _).lane, hclaims]
      exact ⟨⟨hc, by simp⟩, by simp⟩
  refine ⟨?_, hpool⟩
  rw [← s.quiescing.openSlots_sealAll]
  simp only [State.openSlots, State.usedSlots, ht.1]

/-- No background read waits once a drain has started. -/
theorem State.no_background_reads (hmode : s.quiescing.drainStart.quiesceCheck.mode ≠ .run) (l : LaneId) :
    .patrolRead ∉ (s.quiescing.drainStart.quiesceCheck.refresh.lane l).claims ∧
      .relocationRead ∉ (s.quiescing.drainStart.quiesceCheck.refresh.lane l).claims := by
  have hsettled := settled_refresh s.quiescing.drainStart.quiesceCheck
  obtain ⟨a, b, r, -, hclaims⟩ := s.quiescing.drainStart_spec
  constructor
  · rw [hsettled.mem_claims rfl, (poolOnly_quiesceCheck _).lane, hclaims]
    simp
  · intro hwaits
    obtain ⟨-, -, hrun, -⟩ := (relocationClaims_refresh _).1 ⟨l, hwaits⟩
    obtain ⟨_, _, _, he, -⟩ := hsettled
    rw [he] at hrun
    exact hmode hrun

end Sys2Proof.Machine
end

section
/-! PROOFS. FLUSH, QUIESCE and REMOUNT accepted: what each leaves at the end of its step. -/

namespace Sys2Proof.Machine

variable {s : State}

/-- What a FLUSH leaves (02 R36). -/
def State.FlushBegun (s t : State) : Prop :=
  t.serial = (s.replied 0x02 [] false).serial ∧ t.openSlots = [] ∧
    t.PoolSealed s (fun sl => { sl with flushMark := true }) ∧
    (s.exhaustion = false → t.port = s.port ∧ t.answers = s.answers ∧ t.stats = s.stats) ∧
    (s.allFree = true → s.notices.length < 32 → t.notices = s.notices ++ [s.doneBy (.flush false) 0 none]) ∧
    (s.exhaustion = false → s.allFree = false → t.notices = s.notices) ∧
    (∀ k, (t.slot k).all (fun sl => sl.flushMark) = true) ∧
    t.longCmd = (if t.allFree then none else some (.flush false)) ∧
    t.mode = (if s.mode = .draining ∧ s.causes.any = true ∧ t.allFree = true ∧ s.allFree = false
              then .drained else s.mode) ∧
    t.causes = s.causes ∧ t.remap = s.remap ∧ t.cfg = s.cfg ∧ t.seq = s.seq

/-- What a QUIESCE leaves (10 R155, R158). -/
def State.QuiesceBegun (s t : State) : Prop :=
  t.serial = (s.replied 0x02 [] false).serial ∧ t.causes = { s.causes with maintenance := true } ∧
    (s.causes.any = false →
      t.openSlots = [] ∧ t.PoolSealed s (fun sl => sl) ∧
      t.mode = (if t.allFree then .drained else .draining) ∧ t.timer = none ∧
      (∀ l, .patrolRead ∉ (t.lane l).claims ∧ .relocationRead ∉ (t.lane l).claims)) ∧
    (s.causes.any = true → t.mode = s.mode ∧ t.slots = s.slots ∧ t.commitQueue = s.commitQueue ∧ t.timer = s.timer) ∧
    (s.exhaustion = false → t.port = s.port ∧ t.answers = s.answers ∧ t.stats = s.stats ∧
      (t.mode = .drained → s.notices.length < 32 → t.notices = s.notices ++ [s.doneBy .quiesce 0 none]) ∧
      (t.mode ≠ .drained → t.notices = s.notices)) ∧
    t.longCmd = (if t.mode = .drained then none else some .quiesce) ∧
    t.remap = s.remap ∧ t.cfg = s.cfg ∧ t.seq = s.seq

theorem flush_begins (h : s.Listening) (hlong : s.longCmd = none) (hmode : s.mode ≠ .mounting)
    (hcalm : s.anyFlushMark = false ∨ s.exhaustion = false) :
    ∃ t, exec (.flush []) s = .next t ∧ s.FlushBegun t := by
  have hsettled := settled_refresh (s.accept (.flush false)).startFlush
  have hpool := State.poolSealed_startFlush _ hsettled
  have hroom := fun (hfree : s.allFree = true) (hr : s.notices.length < 32) =>
    State.startFlush_notices (s := s.accept (.flush false)) hfree rfl hr
  obtain ⟨honly, hslots, -, hport, hanswers, hstats, hmode', hlong', hnotices⟩ :=
    (s.accept (.flush false)).startFlush_spec
  have hsealing := sealing_sealAll (s.accept (.flush false))
  have hpending := State.sealAll_longCmd_of_flush (s := s.accept (.flush false)) rfl hcalm
  have hstaged := fun he => (staged_sealAll (s := s.accept (.flush false)) he).frame
  have hkept := fun he => State.allFree_sealAll (s := s.accept (.flush false)) he
  have hclosed := (s.accept (.flush false)).openSlots_sealAll
  obtain ⟨hserial, hcauses, hremap, hcfg, hseq, hlink⟩ := (hsealing.only.trans honly.sealsOnly).frame
  have hmodes := hsealing.mode
  refine ⟨_, exec_flush h hlong hmode (hlink.trans h.1.2), ?_⟩
  unfold State.FlushBegun
  generalize (s.accept (.flush false)).startFlush = x at *
  generalize x.refresh = t at *
  generalize (s.accept (.flush false)).sealAll = w at *
  have hslot : ∀ k, t.slot k = (w.slot k).map (fun sl => { sl with flushMark := true }) := fun k => by
    rw [← State.slot_markFlush]
    obtain ⟨_, _, _, rfl, -⟩ := hsettled
    exact State.slot_congr hslots k
  have hfree : t.allFree = w.allFree := State.allFree_congr fun k => by simp [hslot]
  rw [State.openSlots_eq_nil_iff] at hclosed ⊢
  rw [hfree]
  obtain ⟨_, _, _, rfl, -⟩ := hsettled
  refine ⟨hserial, fun k => ?_, hpool, fun he => ?_, hroom, fun he hf => ?_, fun k => ?_, ?_, ?_, hcauses, hremap, hcfg,
    hseq⟩
  · have hk := hclosed k
    rw [hslot]
    cases hk' : w.slot k <;> simp_all [Slot.isOpen]
  · obtain ⟨h1, h2, h3, -⟩ := hstaged he
    exact ⟨hport.trans h1, hanswers.trans h2, hstats.trans h3⟩
  · obtain ⟨-, -, -, h4, -⟩ := hstaged he
    exact (hnotices ((hkept he).trans hf)).trans h4
  · rw [hslot]
    cases w.slot k <;> rfl
  · exact hlong'.trans (by rw [hpending])
  · exact hmode'.trans hmodes

theorem quiesce_begins (h : s.Listening) (hlong : s.longCmd = none) (hmode : s.mode ≠ .mounting) :
    ∃ t, exec (.quiesce []) s = .next t ∧ s.QuiesceBegun t := by
  obtain ⟨y, hbegin, hframe, hdrain, hplain, hpending, hcalm⟩ := State.quiesce_begun hmode
  have hsettled := settled_refresh y.quiesceCheck
  have hstart : s.causes.any = false → y.quiesceCheck.refresh.openSlots = [] ∧
      y.quiesceCheck.refresh.PoolSealed s (fun sl => sl) ∧ y.mode = (if y.allFree then .drained else .draining) ∧
      y.timer = none ∧ ∀ l, .patrolRead ∉ (y.quiesceCheck.refresh.lane l).claims ∧
        .relocationRead ∉ (y.quiesceCheck.refresh.lane l).claims := fun ha => by
    obtain rfl := hdrain ha
    obtain ⟨hclosed, hpool⟩ := State.poolSealed_drain s hsettled
    obtain ⟨a, b, r, hspec, -⟩ := s.quiescing.drainStart_spec
    have hmodes := s.drainStart_quiescing.1
    refine ⟨hclosed, hpool, hmodes, by rw [hspec], State.no_background_reads ?_⟩
    rw [State.quiesceCheck_mode, hmodes]
    split <;> simp
  obtain ⟨hserial, hcauses, hremap, hcfg, hseq, hlink⟩ := hframe
  obtain ⟨hserial', hcauses', hremap', hcfg', hseq', hlink'⟩ := y.quiesceCheck_frame
  have hmaint : y.causes.maintenance = true := by rw [hcauses]
  have hend := State.quiesceCheck_pending hmaint hpending
  have hnotices := fun hl hm => State.quiesceCheck_notices (s := y) hl hm hmaint
  have hsame := fun hm => congrArg State.notices (State.quiesceCheck_of_mode (s := y) hm)
  have hmode' := y.quiesceCheck_mode
  have hslots' := y.quiesceCheck_slots
  have hqueue' := y.quiesceCheck_queue
  have hport' := y.quiesceCheck_port
  have hanswers' := y.quiesceCheck_answers
  have hstats' := y.quiesceCheck_stats
  have htimer' := y.quiesceCheck_timer
  refine ⟨_, exec_quiesce h hlong hmode (by rw [hbegin, hlink', hlink, h.1.2]), ?_⟩
  unfold State.QuiesceBegun
  rw [hbegin]
  generalize y.quiesceCheck = x at *
  generalize x.refresh = t at *
  have hfree : t.allFree = y.allFree := by
    obtain ⟨_, _, _, rfl, -⟩ := hsettled
    simp only [State.allFree, hslots']
  rw [hfree]
  obtain ⟨_, _, _, rfl, -⟩ := hsettled
  refine ⟨hserial'.trans hserial, hcauses'.trans hcauses, fun ha => ?_, fun ha => ?_, fun he => ?_, ?_,
    hremap'.trans hremap, hcfg'.trans hcfg, hseq'.trans hseq⟩
  · obtain ⟨hclosed, hpool, hmodes, htimer, hreads⟩ := hstart ha
    exact ⟨hclosed, hpool, hmode'.trans hmodes, htimer'.trans htimer, hreads⟩
  · obtain rfl := hplain ha
    exact ⟨hmode', hslots', hqueue', htimer'⟩
  · obtain ⟨h1, h2, h3, h4, h5⟩ := hcalm he
    refine ⟨hport'.trans h1, hanswers'.trans h2, hstats'.trans h3, fun hm hr => ?_, fun hm => ?_⟩
    · rw [← h4] at hr ⊢
      exact hnotices h5 (hmode' ▸ hm) hr
    · exact (hsame (hmode' ▸ hm)).trans h4
  · rw [← hmode'] at hend
    exact hend

/-- Settles O59: each command's start, with the seals of every OPEN slot for FLUSH and QUIESCE and the cleared lanes for
REMOUNT. -/
theorem drainCommandsAccepted : Obligations.DrainCommandsAccepted := by
  intro s h hlong hmode
  refine ⟨flush_begins h hlong hmode, quiesce_begins h hlong hmode, fun hdrained hmaint => ?_⟩
  obtain ⟨port, answers, stats, he, hread, hother⟩ := remount_accepted h hlong hdrained hmaint
  refine ⟨_, he, rfl, rfl, rfl, rfl, rfl, rfl, rfl, rfl, rfl, rfl, rfl, fun p => ?_, rfl, rfl, rfl, hread, hother,
    fun l => ?_⟩
  · rw [State.page, State.remounting_lane]
    exact getD_freshPages ..
  · rw [State.remounting_lane]
    exact ⟨rfl, rfl, rfl, length_freshPages .., rfl, rfl, fun o ho hout => Lane.remounted_op ho hout .., rfl⟩

end Sys2Proof.Machine
end

section
/-! PROOFS. Which commands stop: those whose operands no interface of the part can carry, and no others (log 19). -/

namespace Sys2Proof.Machine

variable {s t u : State}

/-! ### Outcomes that go on -/

theorem goesOn_next (t : State) : goesOn (.next t) := ⟨t, rfl⟩

theorem not_goesOn_fault (r : Fault) : ¬ goesOn (.fault r) := fun ⟨_, h⟩ => by cases h

theorem not_goesOn_refused (r : Refusal) : ¬ goesOn (.refused r) := fun ⟨_, h⟩ => by cases h

/-- A command with two effects goes on, whichever it has. -/
theorem goesOn_ite {p : Prop} [Decidable p] : goesOn (if p then .next t else .next u) := by
  split <;> exact goesOn_next _

/-- A command that judges its operands first goes on exactly where they pass. -/
theorem goesOn_ite_iff {p : Prop} [Decidable p] {o stop : Host.Outcome State Fault Refusal} (ho : goesOn o)
    (hstop : ¬ goesOn stop) : goesOn (if p then o else stop) ↔ p := by
  split
  · exact iff_of_true ho ‹_›
  · exact iff_of_false hstop ‹_›

/-! ### Frames of the maintenance port (11 R160) -/

theorem goesOn_exchange (s : State) (params : Nat) (refused : Option Nat) (accepted : State) :
    goesOn (s.exchange params refused accepted) ↔ params ≤ 255 := by
  refine goesOn_ite_iff ?_ (not_goesOn_refused _)
  split
  · split <;> exact goesOn_next _
  · exact goesOn_next _

theorem goesOn_setParam (s : State) (ok : Nat → Bool) (v : List Byte) (effect : State → Nat → State) :
    goesOn (s.setParam ok v effect) ↔ v.length ≤ 254 := by
  rw [State.setParam, goesOn_exchange]
  omega

theorem goesOn_unknownCommand (s : State) (code : Byte) (ps : List Byte) :
    goesOn (execUnknownCommand code ps s) ↔ ps.length ≤ 255 := by
  unfold execUnknownCommand
  split
  · exact goesOn_exchange ..
  · exact goesOn_ite_iff (goesOn_next _) (not_goesOn_refused _)

/-- A frame whose parameters are read before it is judged is an exchange, whether or not they are valid. -/
theorem goesOn_setWindow (s : State) (ps : List Byte) : goesOn (execSetWindow ps s) ↔ ps.length ≤ 255 := by
  unfold execSetWindow
  split <;> exact goesOn_exchange ..

theorem goesOn_sealWindow (s : State) (ps : List Byte) : goesOn (execSealWindow ps s) ↔ ps.length ≤ 255 := by
  unfold execSealWindow
  split <;> exact goesOn_exchange ..

theorem goesOn_setCapacity (s : State) (ps : List Byte) : goesOn (execSetCapacity ps s) ↔ ps.length ≤ 255 := by
  unfold execSetCapacity
  split <;> exact goesOn_exchange ..

/-! ### Completed page reads (06 R97) -/

/-- A completed page read goes on exactly where it brings the 88 bytes of a page. -/
theorem goesOn_pageRead {bytes : List Byte} {o : Host.Outcome State Fault Refusal} (ho : goesOn o) :
    goesOn (if bytes.length = Config.pageBytes then o else .fault .transferLength) ↔ pageOk bytes :=
  goesOn_ite_iff ho (not_goesOn_fault _)

/-! ### All commands -/

/-- Settles O3, by the kinds of operands: none to judge, a host request, a slot number, the 88 bytes of a page, the
parameters of a frame. -/
theorem onlyIllFormedCommandsStop : Obligations.OnlyIllFormedCommandsStop := by
  intro c s
  rw [Instr.WellFormed]
  cases c with
  | powerOn | pwarnAssertion | pwarnDeassertion | wprotAssertion | wprotDeassertion | mountWaitReady | popNoticeSent
  | selectEnd =>
    exact iff_of_true (goesOn_next _) rfl
  | powerLoss | resetAssertion | resetDeassertion | patrolTimerExpiry | readySeen | selectStart =>
    exact iff_of_true goesOn_ite rfl
  | readTimeout | programTimeout | readyTimeout | hostReadGrant | fillReadGrant | recordProgramGrant | commitGrant
  | relocationReadGrant | markGrant | patrolReadGrant | commitProgramDone | recordProgramDone | markProgramDone =>
    refine iff_of_true ?_ rfl
    simp only [exec, execReadTimeout, execProgramTimeout, execReadyTimeout, execHostReadGrant, execFillReadGrant,
      execRecordProgramGrant, execCommitGrant, execRelocationReadGrant, execMarkGrant, execPatrolReadGrant,
      execCommitProgramDone, execRecordProgramDone, execMarkProgramDone]
    split <;> exact goesOn_next _
  | hostWrite addr data =>
    exact (goesOn_ite_iff goesOn_ite (not_goesOn_refused _)).trans decide_eq_true_iff.symm
  | hostRead addr len =>
    exact (goesOn_ite_iff goesOn_ite (not_goesOn_refused _)).trans decide_eq_true_iff.symm
  | holdTimerExpiry k =>
    exact (goesOn_ite_iff goesOn_ite (not_goesOn_refused _)).trans decide_eq_true_iff.symm
  | systemPageReadDone | scanReadDone =>
    exact (goesOn_pageRead (goesOn_next _)).trans decide_eq_true_iff.symm
  | hostReadDone | fillReadDone | relocationReadDone | patrolReadDone | commitVerifyDone | recordReadBackDone =>
    refine (goesOn_pageRead ?_).trans decide_eq_true_iff.symm
    split <;> exact goesOn_next _
  | getStatus | getConfig | getPools | getCounters | inspectLogical | inspectPhysical | popNotice | clearFaults | resume
  | saveConfig | flush | quiesce | format | remount =>
    exact (goesOn_exchange ..).trans decide_eq_true_iff.symm
  | setWindow => exact (goesOn_setWindow ..).trans decide_eq_true_iff.symm
  | sealWindow => exact (goesOn_sealWindow ..).trans decide_eq_true_iff.symm
  | setCapacity => exact (goesOn_setCapacity ..).trans decide_eq_true_iff.symm
  | unknownCommand => exact (goesOn_unknownCommand ..).trans decide_eq_true_iff.symm
  | setHoldTime | setPatrolInterval | setMigrationThreshold | setWearLimit | setSoftLimit | setReserveFloor
  | setProgramTimeLimit | setAttentionMask =>
    simp only [exec, execSetHoldTime, execSetPatrolInterval, execSetMigrationThreshold, execSetWearLimit,
      execSetSoftLimit, execSetReserveFloor, execSetProgramTimeLimit, execSetAttentionMask, goesOn_setParam]
    exact decide_eq_true_iff.symm
  | badFrame => exact goesOn_ite_iff goesOn_ite (not_goesOn_refused _)

end Sys2Proof.Machine
end

section
/-! PROOFS. The checks of a write: the pages it touches, and the answer of the first check that applies (03 R51
to R54). -/

namespace Sys2Proof.Machine

variable {s : State} {addr : Nat} {data : List Byte}

/-! ### Answers of an idle port (03 R49) -/

theorem State.answer_fault (h : s.port = .idle) (c : FaultCause) :
    s.answer (.fault c) = { s with answers := s.answers ++ [.fault c] } := by
  simp [State.answer, ← h]

theorem State.answer_retry (h : s.port = .idle) : s.answer .retry =
    { s with answers := s.answers ++ [.retry], stats := { s.stats with retries := s.stats.retries + 1 } } := by
  simp [State.answer, ← h]

/-! ### The pages a write touches (01 R1) -/

/-- A write of at most 64 bytes touches the page of its first byte and, where that is another, the page of its last. -/
theorem writeParts_pages (hlow : 1 ≤ data.length) (hhigh : data.length ≤ 64) :
    (writeParts addr data).map (·.page) =
      List.range' (addr / 64) ((addr + data.length - 1) / 64 + 1 - addr / 64) := by
  unfold writeParts
  by_cases h : addr % 64 + data.length ≤ 64 <;> simp only [Config.dataBytes, h, if_true, if_false]
  · have hone : (addr + data.length - 1) / 64 + 1 - addr / 64 = 1 := by omega
    rw [hone]
    rfl
  · have htwo : (addr + data.length - 1) / 64 + 1 - addr / 64 = 2 := by omega
    rw [htwo]
    rfl

theorem writeParts_any (hlow : 1 ≤ data.length) (hhigh : data.length ≤ 64) (f : Nat → Bool) :
    (writeParts addr data).any (fun pt => f pt.page) = (f (addr / 64) || f ((addr + data.length - 1) / 64)) := by
  have hmap : (writeParts addr data).any (fun pt => f pt.page) = ((writeParts addr data).map (·.page)).any f := by
    rw [List.any_map]
    rfl
  rw [hmap, writeParts_pages hlow hhigh]
  have hlast : (addr + data.length - 1) / 64 = addr / 64 ∨ (addr + data.length - 1) / 64 = addr / 64 + 1 := by omega
  rcases hlast with h | h
  · have hone : addr / 64 + 1 - addr / 64 = 1 := by omega
    simp [h, hone]
  · have htwo : addr / 64 + 1 + 1 - addr / 64 = 2 := by omega
    simp [h, htwo, List.range']

theorem State.spaceForbids_iff (hlow : 1 ≤ data.length) (hhigh : data.length ≤ 64) :
    s.spaceForbids (writeParts addr data) = true ↔
      s.space = .exhausted ∨ (s.space = .low ∧
        (s.needsFirstCopy (addr / 64) = true ∨ s.needsFirstCopy ((addr + data.length - 1) / 64) = true)) := by
  unfold State.spaceForbids
  split <;> rename_i h <;> simp [h, writeParts_any hlow hhigh]

theorem State.slotsNeeded_writeParts (hlow : 1 ≤ data.length) (hhigh : data.length ≤ 64) :
    s.slotsNeeded (writeParts addr data) =
      (List.range' (addr / 64) ((addr + data.length - 1) / 64 + 1 - addr / 64)).countP
        (fun page => (s.mergeTarget page).isNone) := by
  rw [← writeParts_pages hlow hhigh, List.countP_map]
  rfl

/-! ### The checks in order (03 Table 3.4) -/

/-- Settles O28, by the checks of Table 3.4. -/
theorem writeChecksInOrder : Obligations.WriteChecksInOrder := by
  intro s addr data hq hport hlow hhigh
  have hstep := settlesTo_hostWrite (addr := addr) hq hport hlow hhigh
  have hprotected := writeParts_any (addr := addr) hlow hhigh s.writeProtected
  have hforbids := State.spaceForbids_iff (s := s) (addr := addr) hlow hhigh
  have hneeded := State.slotsNeeded_writeParts (s := s) (addr := addr) hlow hhigh
  unfold State.takeWrite Config.dataBytes at hstep
  refine ⟨fun hmode => ?_, fun hmode hbeyond => ?_, fun hmode hrange hlocked => ?_,
    fun hmode hrange hfirst hlast hspace => ?_, fun hmode hrange hfirst hlast hspace hcopies hfull => ?_⟩
  · rw [if_pos hmode, State.answer_retry hport] at hstep
    exact hstep
  · rw [if_neg (by simp [hmode]), if_pos hbeyond, State.answer_fault hport] at hstep
    exact hstep
  · rw [if_neg (by simp [hmode]), if_neg (Nat.not_lt.mpr hrange), if_pos (by simpa [hprotected] using hlocked),
      State.answer_fault hport] at hstep
    exact hstep
  · rw [if_neg (by simp [hmode]), if_neg (Nat.not_lt.mpr hrange), if_neg (by simp [hprotected, hfirst, hlast]),
      if_pos (hforbids.mpr hspace), State.answer_fault hport] at hstep
    exact hstep
  · have hadmitted : ¬ s.spaceForbids (writeParts addr data) = true := by
      rw [hforbids]
      rintro (h | ⟨h, hfresh⟩)
      · exact hspace h
      · simp [hcopies h] at hfresh
    rw [if_neg (by simp [hmode]), if_neg (Nat.not_lt.mpr hrange), if_neg (by simp [hprotected, hfirst, hlast]),
      if_neg hadmitted, if_pos (by rw [hneeded]; exact hfull), State.answer_retry hport] at hstep
    exact hstep

end Sys2Proof.Machine
end

section
/-! PROOFS. Reads of the host: where the bytes of a page come from, how a read goes on as its pages end, and how a read
that the port takes is answered or waits for its lanes. -/

namespace Sys2Proof.Machine

variable {s : State} {page off len : Nat} {l : LaneId} {x : List ReadByte} {ps : List ReadPage} {rp : ReadPage}

/-! ### The sources of a page (03 R59) -/

theorem State.bytesAtHand_of_source
    (h : (∀ i < len, (s.slotByte page (off + i)).isSome = true) ∨ s.entry page = .unmapped) :
    s.bytesAtHand page off len =
      some ((List.range len).map (fun i =>
        (s.slotByte page (off + i)).getD { byte := 0xFF#8, poisoned := false })) := by
  refine if_pos ?_
  simpa only [Bool.or_eq_true, List.all_eq_true, List.mem_range, beq_iff_eq] using h

theorem State.bytesAtHand_eq_none (h : ∃ i < len, s.slotByte page (off + i) = none) (he : s.entry page ≠ .unmapped) :
    s.bytesAtHand page off len = none := by
  obtain ⟨i, hi, hnone⟩ := h
  refine if_neg ?_
  simp only [Bool.or_eq_true, List.all_eq_true, List.mem_range, beq_iff_eq, he, or_false]
  exact fun hall => by simpa [hnone] using hall i hi

theorem State.all_slotBytes (s : State) (page off len : Nat) : (s.slotBytes page off len).all Option.isSome =
    (List.range len).all (fun i => (s.slotByte page (off + i)).isSome) := by
  rw [State.slotBytes, List.all_map]
  rfl

theorem State.getD_slotBytes (s : State) (page off len : Nat) :
    (s.slotBytes page off len).map (·.getD erasedRead) =
      (List.range len).map (fun i => (s.slotByte page (off + i)).getD { byte := 0xFF#8, poisoned := false }) := by
  rw [State.slotBytes, List.map_map]
  rfl

theorem State.resolve_of_hand (h : s.bytesAtHand page off len = some x) : s.resolve page off len = .whole x := by
  unfold State.bytesAtHand at h
  split at h
  case isFalse => cases h
  case isTrue hsource =>
    rw [Option.some.injEq, ← s.getD_slotBytes] at h
    rw [← s.all_slotBytes, Bool.or_eq_true, beq_iff_eq] at hsource
    unfold State.resolve
    dsimp only
    rw [h]
    split
    · rfl
    · rw [hsource.resolve_left ‹_›]

theorem State.slots_give_less (h : s.bytesAtHand page off len = none) :
    (s.slotBytes page off len).all Option.isSome = false ∧ s.entry page ≠ .unmapped := by
  unfold State.bytesAtHand at h
  split at h
  · cases h
  · rename_i hsource
    rw [← s.all_slotBytes, Bool.or_eq_true, beq_iff_eq, not_or, Bool.not_eq_true] at hsource
    exact hsource

theorem State.resolve_of_copy {p : PPage} {q : Nat} (h : s.bytesAtHand page off len = none)
    (he : s.entry page = .mapped p q) (hon : (s.lane p.lane).online = true) :
    s.resolve page off len = .copy p q (s.slotBytes page off len) := by
  simp [State.resolve, (State.slots_give_less h).1, he, hon]

theorem State.resolve_of_copyLane (h : s.bytesAtHand page off len = none) (hl : s.copyLane page = some l) :
    ∃ p q, p.lane = l ∧ s.resolve page off len = .copy p q (s.slotBytes page off len) := by
  unfold State.copyLane at hl
  split at hl
  · rename_i p q he
    split at hl
    · rename_i hon
      exact ⟨p, q, Option.some.inj hl, State.resolve_of_copy h he hon⟩
    · cases hl
  · cases hl

theorem State.resolve_of_no_source (h : s.bytesAtHand page off len = none) (hl : s.copyLane page = none) :
    s.resolve page off len = .noSource := by
  obtain ⟨hless, hmapped⟩ := State.slots_give_less h
  unfold State.resolve
  cases he : s.entry page with
  | unmapped => exact absurd he hmapped
  | absent => simp [hless]
  | mapped p q =>
    rw [State.copyLane_of_entry he] at hl
    simp_all

/-! ### Answers (03 R49, R61) -/

theorem State.answer_of_ne_retry {a : HostAnswer} (h : a ≠ .retry) :
    s.answer a = { s with port := .idle, answers := s.answers ++ [a] } := by
  simp [State.answer, h]

theorem answerOf_ne_retry (x : List ReadByte) : answerOf x ≠ .retry := by
  unfold answerOf
  split <;> simp

theorem failedWith_of_not_failed (h : ps.any ReadPage.failed = false) (c : FaultCause) :
    ps.any (·.failedWith c) = false := by
  rw [List.any_eq_false] at h ⊢
  intro rp hrp hwith
  rw [ReadPage.failedWith, beq_iff_eq] at hwith
  exact h rp hrp (by rw [ReadPage.failed, hwith])

theorem readAnswer_of_not_failed (h : ps.any ReadPage.failed = false) :
    readAnswer ps = answerOf (ps.flatMap ReadPage.bytes) := by
  simp [readAnswer, failedWith_of_not_failed h, answerOf]

/-! ### A read goes on (03 R61, R62) -/

theorem State.advanceRead_open (hwell : ps.any ReadPage.failed = false) (hopen : ps.any ReadPage.open? = true) :
    s.advanceRead ps = { s with port := .reading ps } := by
  simp [State.advanceRead, hwell, hopen]

/-- A read none of whose pages failed or is open gives the bytes of its pages, whose requests follow. -/
theorem State.advanceRead_ended (hwell : ps.any ReadPage.failed = false) (hended : ps.any ReadPage.open? = false) :
    s.advanceRead ps = ps.foldl State.pageRequest
      { s with port := .idle, answers := s.answers ++ [answerOf (ps.flatMap ReadPage.bytes)] } := by
  simp only [State.advanceRead, hwell, hended, Bool.false_eq_true, if_false, readAnswer_of_not_failed hwell,
    State.answer_of_ne_retry (answerOf_ne_retry _)]

/-! ### A read as the port takes it (03 R48, R58) -/

/-- A request presented on an idle port with an empty link is taken within the step. -/
theorem settlesTo_present (hq : s.Quiet) (hport : s.port = .idle) (r : HostRequest) :
    SettlesTo (.next (s.present r).settle) (s.takeRequest r) := by
  obtain ⟨halive, hlink⟩ := hq
  have htaken : { s.present r with link := [] } = s := by
    rw [← hlink]
    rfl
  have htakes : (s.present r).portTakes = true := by
    have halive' : (s.present r).alive = true := halive
    simp [State.portTakes, halive', hport]
  have hserve : (s.present r).serveLink = s.takeRequest r := by
    simp only [State.serveLink, State.present_link, hlink, List.nil_append, List.foldl_cons, List.foldl_nil, htakes,
      if_true, List.tail_cons]
    rw [htaken]
  rw [State.settle, hserve]
  exact ⟨_, rfl, settled_refresh _⟩

theorem settlesTo_hostRead {addr : Nat} (hq : s.Quiet) (hport : s.port = .idle) (hlow : 1 ≤ len) (hhigh : len ≤ 64) :
    SettlesTo (exec (.hostRead addr len) s) (s.takeRead addr len) := by
  have hpowered : s.powered = true := by
    have halive := hq.1
    simp only [State.alive, Bool.and_eq_true] at halive
    exact halive.1
  have hlen : 1 ≤ len ∧ len ≤ Config.dataBytes := ⟨hlow, hhigh⟩
  have hexec : exec (.hostRead addr len) s = .next (s.present (.read addr len)).settle := by
    change execHostRead addr len s = _
    simp [execHostRead, hlen, hpowered]
  rw [hexec]
  exact settlesTo_present hq hport (.read addr len)

theorem readParts_one (hlow : 1 ≤ len) (hfit : off + len ≤ 64) :
    readParts (64 * page + off) len = [(page, off, len)] := by
  have hoff : (64 * page + off) % 64 = off := by omega
  have hpage : (64 * page + off) / 64 = page := by omega
  simp [readParts, Config.dataBytes, hoff, hpage, hfit]

theorem readParts_two (hoff : off < 64) (hover : 64 < off + len) :
    readParts (64 * page + off) len = [(page, off, 64 - off), (page + 1, 0, off + len - 64)] := by
  have hmod : (64 * page + off) % 64 = off := by omega
  have hpage : (64 * page + off) / 64 = page := by omega
  simp [readParts, Config.dataBytes, hmod, hpage, Nat.not_le.mpr hover]

theorem State.startPage_of_hand (h : s.bytesAtHand page off len = some x) :
    s.startPage (page, off, len) = { page := page, off := off, len := len, progress := .taken x none } := by
  simp [State.startPage, State.resolve_of_hand h, Resolved.start]

theorem State.startPage_of_copy (h : s.bytesAtHand page off len = none) (hl : s.copyLane page = some l) :
    s.startPage (page, off, len) = { page := page, off := off, len := len, progress := .waiting l } := by
  obtain ⟨p, q, rfl, hcopy⟩ := State.resolve_of_copyLane h hl
  simp [State.startPage, hcopy, Resolved.start]

theorem State.failed_startPage (h : s.bytesAtHand page off len = none) (hl : s.copyLane page = none) :
    (s.startPage (page, off, len)).failed = true := by
  simp [State.startPage, State.resolve_of_no_source h hl, Resolved.start, ReadPage.failed]

/-- A read within the capacity, outside MOUNTING, by the pages as they start. -/
theorem settlesTo_read {addr : Nat} {parts : List (Nat × Nat × Nat)} (hq : s.Quiet) (hport : s.port = .idle)
    (hlow : 1 ≤ len) (hhigh : len ≤ 64) (hmode : s.mode ≠ .mounting) (hrange : addr + len ≤ 64 * s.cfg.capacity)
    (hparts : readParts addr len = parts) :
    SettlesTo (exec (.hostRead addr len) s)
      (if (parts.map s.startPage).any ReadPage.failed then { s with answers := s.answers ++ [.fault .laneOffline] }
       else (s.postPages (parts.map s.startPage)).advanceRead (parts.map s.startPage)) := by
  have hstep := settlesTo_hostRead (addr := addr) hq hport hlow hhigh
  have hinside : ¬ s.cfg.capacity * Config.dataBytes < addr + len := by
    simp only [Config.dataBytes]
    omega
  rw [State.takeRead, if_neg hmode, if_neg hinside, hparts, State.answer_fault hport] at hstep
  exact hstep

theorem settlesTo_read_one (hq : s.Quiet) (hport : s.port = .idle) (hlow : 1 ≤ len) (hfit : off + len ≤ 64)
    (hmode : s.mode ≠ .mounting) (hpage : page < s.cfg.capacity) :
    (∀ x, s.bytesAtHand page off len = some x →
      SettlesTo (exec (.hostRead (64 * page + off) len) s) { s with answers := s.answers ++ [answerOf x] }) ∧
    (s.bytesAtHand page off len = none →
      (s.copyLane page = none → SettlesTo (exec (.hostRead (64 * page + off) len) s)
        { s with answers := s.answers ++ [.fault .laneOffline] }) ∧
      (∀ l, s.copyLane page = some l → SettlesTo (exec (.hostRead (64 * page + off) len) s)
        { (s.post l (.hostRead false)) with
          port := .reading [{ page := page, off := off, len := len, progress := .waiting l }] })) := by
  have hstep := settlesTo_read hq hport hlow (by omega) hmode (by omega) (readParts_one (page := page) hlow hfit)
  rw [List.map_singleton] at hstep
  refine ⟨fun x hx => ?_, fun hnone => ⟨fun hno => ?_, fun l hl => ?_⟩⟩
  · rw [State.startPage_of_hand hx, if_neg (by simp [ReadPage.failed]), State.advanceRead_ended rfl rfl] at hstep
    simpa [State.postPages, State.postPage, State.pageRequest, ReadPage.bytes, ← hport] using hstep
  · rw [if_pos (by simp [State.failed_startPage hnone hno])] at hstep
    exact hstep
  · rw [State.startPage_of_copy hnone hl, if_neg (by simp [ReadPage.failed]), State.advanceRead_open rfl rfl] at hstep
    exact hstep

theorem settlesTo_read_two (hq : s.Quiet) (hport : s.port = .idle) (hoff : off < 64) (hover : 64 < off + len)
    (hhigh : len ≤ 64) (hmode : s.mode ≠ .mounting) (hpage : page + 1 < s.cfg.capacity) :
    SettlesTo (exec (.hostRead (64 * page + off) len) s)
      (if [s.startPage (page, off, 64 - off), s.startPage (page + 1, 0, off + len - 64)].any ReadPage.failed then
        { s with answers := s.answers ++ [.fault .laneOffline] }
       else
        ((s.postPage false (s.startPage (page, off, 64 - off))).postPage true
          (s.startPage (page + 1, 0, off + len - 64))).advanceRead
            [s.startPage (page, off, 64 - off), s.startPage (page + 1, 0, off + len - 64)]) :=
  settlesTo_read hq hport (by omega) hhigh hmode (by omega) (readParts_two hoff hover)

/-- Settles O32: the refusals, a read of one page by its sources, a read of two by the sources of both. -/
theorem readTaken : Obligations.ReadTaken := by
  refine ⟨fun s addr len hq hport hlow hhigh => ?_, fun s page off len hq hport hlow hfit hmode hpage => ?_,
    fun s page off len hq hport hlow hfit hmode hpage hless p q he hon => ?_, ?_⟩
  · have hstep := settlesTo_hostRead (addr := addr) hq hport hlow hhigh
    unfold State.takeRead Config.dataBytes at hstep
    refine ⟨fun hmode => ?_, fun hmode hbeyond => ?_⟩
    · rw [if_pos hmode, State.answer_retry hport] at hstep
      exact hstep
    · rw [if_neg hmode, if_pos hbeyond, State.answer_fault hport] at hstep
      exact hstep
  · obtain ⟨hhand, hlane⟩ := settlesTo_read_one hq hport hlow hfit hmode hpage
    refine ⟨fun hsource => hhand _ (State.bytesAtHand_of_source hsource),
      fun hless => ⟨fun he => ?_, fun p q he hoff => ?_⟩⟩
    · exact (hlane (State.bytesAtHand_eq_none hless (by simp [he]))).1 (by simp [State.copyLane, he])
    · exact (hlane (State.bytesAtHand_eq_none hless (by simp [he]))).1 (by simp [State.copyLane_of_entry he, hoff])
  · exact ((settlesTo_read_one hq hport hlow hfit hmode hpage).2 (State.bytesAtHand_eq_none hless (by simp [he]))).2 _
      (by simp [State.copyLane_of_entry he, hon])
  · intro s page off len hq hport hoff hover hhigh hmode hpage first second reading o
    have hstep := settlesTo_read_two hq hport hoff hover hhigh hmode hpage
    refine ⟨fun hno => ?_, fun x hx y hy => ?_, fun x hx hnone m hm => ?_, fun hnone l hl y hy => ?_,
      fun hnone l hl hnone' m hm => ?_⟩
    · have hfailed : [s.startPage (page, off, 64 - off), s.startPage (page + 1, 0, off + len - 64)].any
          ReadPage.failed = true := by
        rcases hno with ⟨hnone, hno⟩ | ⟨hnone, hno⟩ <;> simp [State.failed_startPage hnone hno]
      rw [if_pos hfailed] at hstep
      exact hstep
    · rw [State.startPage_of_hand hx, State.startPage_of_hand hy, if_neg (by simp [ReadPage.failed]),
        State.advanceRead_ended rfl rfl] at hstep
      simpa [State.postPage, State.pageRequest, ReadPage.bytes, ← hport] using hstep
    · rw [State.startPage_of_hand hx, State.startPage_of_copy hnone hm, if_neg (by simp [ReadPage.failed]),
        State.advanceRead_open rfl rfl] at hstep
      exact hstep
    · rw [State.startPage_of_copy hnone hl, State.startPage_of_hand hy, if_neg (by simp [ReadPage.failed]),
        State.advanceRead_open rfl rfl] at hstep
      exact hstep
    · rw [State.startPage_of_copy hnone hl, State.startPage_of_copy hnone' hm, if_neg (by simp [ReadPage.failed]),
        State.advanceRead_open rfl rfl] at hstep
      exact hstep

end Sys2Proof.Machine
end

section
/-! PROOFS. The read-back of a host read: the bytes of the granted page are taken from the copy, the request is
answered, and a CORRECTED codeword asks for the page's relocation. -/

namespace Sys2Proof.Machine

variable {s : State} {l : LaneId} {ps : List ReadPage} {rp : ReadPage} {g : ReadProgress}

/-! ### What the end of a decoded read leaves (07 R118) -/

@[simp] theorem State.readEnds_port (s : State) (l : LaneId) (n i : Nat) (d : Decoded) :
    (s.readEnds l n i d).port = s.port := by
  unfold State.readEnds State.readEffects State.noteUncorrectable
  split <;> rfl

@[simp] theorem State.readEnds_answers (s : State) (l : LaneId) (n i : Nat) (d : Decoded) :
    (s.readEnds l n i d).answers = s.answers := by
  unfold State.readEnds State.readEffects State.noteUncorrectable
  split <;> rfl

@[simp] theorem State.readEnds_relocList (s : State) (l : LaneId) (n i : Nat) (d : Decoded) :
    (s.readEnds l n i d).relocList = s.relocList := by
  unfold State.readEnds State.readEffects State.noteUncorrectable
  split <;> rfl

/-! ### Relocation requests (07 R120) -/

theorem Decoded.has_iff (d : Decoded) (o : CwOutcome) : d.has o = true ↔ o ∈ d.outcomes := by
  simp [Decoded.has]

/-- The relocation list and the soft count of a page do not meet. -/
theorem State.softened_relocList (s : State) (r : List (Nat × PPage)) (p : PPage) :
    ({ s with relocList := r } : State).softened p = { (s.softened p) with relocList := r } := by
  unfold State.softened
  have hpage : ({ s with relocList := r } : State).page p = s.page p := rfl
  rw [hpage]
  split <;> rfl

theorem State.relocRequest_eq (s : State) (n : Nat) (p : PPage) : s.relocRequest n p =
    if s.hasSlot n = false ∧ s.relocListed n = false ∧ s.relocList.length < 8 then
      { (s.softened p) with relocList := s.relocList ++ [(n, p)] }
    else s := by
  have hcond : (s.hasSlot n || s.relocListed n || decide (Config.relocCapacity ≤ s.relocList.length)) = true ↔
      ¬ (s.hasSlot n = false ∧ s.relocListed n = false ∧ s.relocList.length < 8) := by
    have hroom : decide (Config.relocCapacity ≤ s.relocList.length) = true ↔ 8 ≤ s.relocList.length :=
      decide_eq_true_iff
    simp only [Bool.or_eq_true, hroom, ← Bool.not_eq_true, ← Nat.not_le]
    tauto
  rw [State.relocRequest, State.bumpSoft_eq_softened, State.softened_relocList]
  split <;> rename_i h <;> rw [hcond] at h
  · rw [if_neg h]
  · rw [if_pos (not_not.mp h)]

@[simp] theorem State.relocRequest_link (s : State) (n : Nat) (p : PPage) : (s.relocRequest n p).link = s.link := by
  rw [State.relocRequest_eq]
  split
  · exact s.softened_link p
  · rfl

@[simp] theorem State.pageRequest_link (s : State) (rp : ReadPage) : (s.pageRequest rp).link = s.link := by
  unfold State.pageRequest
  split
  · exact s.relocRequest_link ..
  · rfl

/-! ### The page of a read -/

theorem Port.eq_reading_of_single {port : Port} (h : port.single = some rp) : port = .reading [rp] := by
  unfold Port.single at h
  split at h
  · rw [Option.some.inj h]
  · cases h

theorem ReadProgress.eq_granted {got : List (Option ReadByte)} (h : g.slotsGave = some got) :
    ∃ m, g = .granted m got := by
  unfold ReadProgress.slotsGave at h
  split at h
  · exact ⟨_, by rw [Option.some.inj h]⟩
  · cases h

theorem State.setProgress_reading (h : s.port = .reading ps) (second : Bool) (g : ReadProgress) :
    s.setProgress second g =
      s.advanceRead (ps.modify (if second then 1 else 0) (fun rp => { rp with progress := g })) := by
  simp [State.setProgress, h]

/-! ### The end of a host read of one page (03 R61) -/

theorem exec_hostReadDone {b : Bool} {n i q : Nat} {bytes : List Byte} (hbytes : bytes.length = 88)
    (hop : (s.lane l).readOp = some (.host b, n, i, q)) :
    exec (.hostReadDone l bytes) s = .next (s.hostReadDone l b n i q bytes).settle := by
  have hlen : bytes.length = Config.pageBytes := hbytes
  change execHostReadDone l bytes s = _
  simp [execHostReadDone, hlen, hop]

theorem State.hostReadDone_of_discard (h : (s.lane l).discard = true) (b : Bool) (n i q : Nat) (bytes : List Byte) :
    s.hostReadDone l b n i q bytes = s.idled l := if_pos h

theorem State.hostReadDone_of_kept (h : (s.lane l).discard = false) (b : Bool) (n i q : Nat) (bytes : List Byte) :
    s.hostReadDone l b n i q bytes =
      (s.readEnds l n i (s.decode bytes n q)).takeCopy b { lane := l, index := i } (s.decode bytes n q) :=
  if_neg (by simp [h])

/-- The read of one page ends with its copy: it is answered, and its request follows where a codeword was CORRECTED. -/
theorem State.takeCopy_single {m : LaneId} {got : List (Option ReadByte)} (hport : s.port = .reading [rp])
    (hgot : rp.progress = .granted m got) (p : PPage) (d : Decoded) :
    s.takeCopy false p d =
      let v : State := { s with port := .idle, answers := s.answers ++ [answerOf (rp.combine got d)] }
      if .corrected ∈ d.outcomes then v.relocRequest rp.page p else v := by
  have hpage : s.readPage false = some rp := by simp [State.readPage, hport]
  simp only [State.takeCopy, hpage, hgot, State.setProgress_reading hport, Bool.false_eq_true, if_false,
    List.modify_zero_cons]
  rw [State.advanceRead_ended rfl rfl]
  simp only [List.flatMap_cons, List.flatMap_nil, List.append_nil, ReadPage.bytes, List.foldl_cons, List.foldl_nil,
    State.pageRequest, ← d.has_iff]
  cases d.has .corrected <;> rfl

/-- Settles O42: a discarded read, then a read that is answered, with and without its request. -/
theorem hostReadAnswered : Obligations.HostReadAnswered := by
  refine ⟨fun s l bytes hq hbytes hdiscard r hop b hb => ?_, ?_⟩
  · obtain ⟨reader, n, i, q⟩ := r
    obtain rfl : reader = .host b := hb
    rw [exec_hostReadDone hbytes hop, State.hostReadDone_of_discard hdiscard]
    exact settlesTo_next hq.2
  · intro s l bytes hq hbytes hdiscard r hop hr rp hsingle got hgave d p u bytesGot v
    obtain ⟨reader, n, i, q⟩ := r
    obtain rfl : reader = .host false := hr
    obtain ⟨m, hgranted⟩ := ReadProgress.eq_granted hgave
    have hport : u.port = .reading [rp] := (s.readEnds_port ..).trans (Port.eq_reading_of_single hsingle)
    have hv : ({ u with port := .idle, answers := u.answers ++ [answerOf (rp.combine got d)] } : State) = v := by
      rw [State.readEnds_answers]
      rfl
    rw [exec_hostReadDone hbytes hop, State.hostReadDone_of_kept hdiscard]
    change SettlesTo (.next (u.takeCopy false p d).settle) _
    rw [State.takeCopy_single hport hgranted]
    dsimp only
    rw [hv]
    have hslots : v.hasSlot rp.page = s.hasSlot rp.page := by simp [State.hasSlot, v, u]
    have hlist : v.relocList = s.relocList := s.readEnds_relocList ..
    have hlisted : v.relocListed rp.page = s.relocListed rp.page := by simp only [State.relocListed, hlist]
    have hlink : v.link = [] := (s.readEnds_link ..).trans hq.2
    rw [← hslots, ← hlisted, ← hlist]
    clear_value v
    by_cases hcorrected : .corrected ∈ d.outcomes
    · rw [if_pos hcorrected, State.relocRequest_eq]
      simp only [hcorrected, true_and]
      refine settlesTo_next ?_
      split
      · exact (v.softened_link p).trans hlink
      · exact hlink
    · rw [if_neg hcorrected, if_neg fun h => hcorrected h.1]
      exact settlesTo_next hlink

end Sys2Proof.Machine
end

section
/-! PROOFS. The pages of a read in progress: its one or two pages in order, and how the read goes on as one of them is
granted, moves, is taken or fails. -/

namespace Sys2Proof.Machine

variable {s : State} {b : Bool} {ps : List ReadPage} {rp : ReadPage} {other : Option ReadPage} {g : ReadProgress}

/-! ### The pages of a read in order -/

/-- The pages of a read of at most two, given one of them and the other: the second page stands last. -/
def pagesOfRead (second : Bool) (rp : ReadPage) (other : Option ReadPage) : List ReadPage :=
  if second then other.toList ++ [rp] else rp :: other.toList

theorem any_pagesOfRead (f : ReadPage → Bool) (b : Bool) (rp : ReadPage) (other : Option ReadPage) :
    (pagesOfRead b rp other).any f = (f rp || other.any f) := by
  cases b <;> cases other <;> simp [pagesOfRead, Bool.or_comm]

theorem map_pagesOfRead (f : ReadPage → ReadPage) (b : Bool) (rp : ReadPage) (other : Option ReadPage) :
    (pagesOfRead b rp other).map f = pagesOfRead b (f rp) (other.map f) := by
  cases b <;> cases other <;> rfl

theorem bytes_pagesOfRead (b : Bool) (rp : ReadPage) (other : Option ReadPage) :
    (pagesOfRead b rp other).flatMap ReadPage.bytes =
      if b then (other.map ReadPage.bytes).getD [] ++ rp.bytes else rp.bytes ++ (other.map ReadPage.bytes).getD [] := by
  cases b <;> cases other <;> simp [pagesOfRead]

/-- Where one page asks for no relocation, the requests of a read are those of the other. -/
theorem foldl_pageRequest_pagesOfRead (hquiet : ∀ t : State, t.pageRequest rp = t) (b : Bool) (other : Option ReadPage)
    (s : State) : (pagesOfRead b rp other).foldl State.pageRequest s = other.elim s s.pageRequest := by
  cases b <;> cases other <;> simp [pagesOfRead, hquiet]

theorem State.port_of_readPage (h : s.readPage b = some rp) :
    ∃ ps, s.port = .reading ps ∧ ps[if b then 1 else 0]? = some rp := by
  unfold State.readPage at h
  split at h
  · exact ⟨_, ‹_›, h⟩
  · cases h

/-- A read of at most two pages is the page given and the other one; the second page is never alone. -/
theorem State.port_of_two (h : s.readPage b = some rp) (hle : s.readPages ≤ 2) :
    s.port = .reading (pagesOfRead b rp (s.readPage (!b))) ∧ (b = true → (s.readPage (!b)).isSome = true) := by
  obtain ⟨ps, hport, hget⟩ := State.port_of_readPage h
  simp only [State.readPages, hport] at hle
  simp only [State.readPage, hport, pagesOfRead]
  match ps, hle with
  | [], _ => cases b <;> simp at hget
  | [p], _ => cases b <;> simp_all
  | [p, q], _ => cases b <;> simp_all

theorem Port.progressed_two (h : s.readPage b = some rp) (hle : s.readPages ≤ 2) (g : ReadProgress) :
    s.port.progressed b g = .reading (pagesOfRead b { rp with progress := g } (s.readPage (!b))) := by
  obtain ⟨hport, hother⟩ := State.port_of_two h hle
  cases b with
  | false => rw [hport]; rfl
  | true =>
    obtain ⟨p, hp⟩ := Option.isSome_iff_exists.mp (hother rfl)
    rw [hport, hp]
    rfl

theorem State.setProgress_eq (h : s.readPage b = some rp) (hprog : s.port.progressed b g = .reading ps) :
    s.setProgress b g = s.advanceRead ps := by
  obtain ⟨qs, hport, -⟩ := State.port_of_readPage h
  rw [hport, Port.progressed] at hprog
  rw [State.setProgress_reading hport, Port.reading.inj hprog]

theorem Port.healthy_reading (ps : List ReadPage) : (Port.reading ps).healthy = !ps.any ReadPage.failed := by
  rw [Port.healthy, List.not_any_eq_all_not]

theorem not_failed_of_healthy (h : s.readPage b = some rp) (hle : s.readPages ≤ 2) (hwell : s.port.healthy = true) :
    (s.readPage (!b)).any ReadPage.failed = false := by
  rw [(State.port_of_two h hle).1, Port.healthy_reading, any_pagesOfRead, Bool.not_or, Bool.and_eq_true] at hwell
  simpa using hwell.2

/-! ### A page that stays open (03 R60) -/

theorem any_failed_modify (hwell : ps.any ReadPage.failed = false) (i : Nat) {f : ReadPage → ReadPage}
    (hf : ∀ rp, (f rp).failed = false) : (ps.modify i f).any ReadPage.failed = false := by
  induction ps generalizing i with
  | nil => cases i <;> rfl
  | cons p ps ih =>
    rw [List.any_cons, Bool.or_eq_false_iff] at hwell
    cases i with
    | zero => simpa [hf] using hwell.2
    | succ i => simpa [hwell.1] using ih hwell.2 i

/-- A page that is granted or moves leaves the read READING. -/
theorem State.setProgress_open (h : s.readPage b = some rp) (hwell : s.port.healthy = true)
    (hopen : ∀ rp : ReadPage, ({ rp with progress := g } : ReadPage).open? = true) :
    s.setProgress b g = { s with port := s.port.progressed b g } := by
  obtain ⟨ps, hport, hget⟩ := State.port_of_readPage h
  have hnot : ∀ rp : ReadPage, ({ rp with progress := g } : ReadPage).failed = false := fun rp => by
    have := hopen rp
    cases g <;> simp_all [ReadPage.open?, ReadPage.failed]
  rw [hport, Port.healthy_reading, Bool.not_eq_true'] at hwell
  rw [State.setProgress_reading hport, hport, State.advanceRead_open (any_failed_modify hwell _ hnot)]
  · rfl
  · refine List.any_eq_true.mpr ⟨_, List.mem_of_getElem? (i := if b then 1 else 0) ?_, hopen rp⟩
    rw [List.getElem?_modify, hget]
    simp

/-! ### A page taken at its grant (03 R59, R61) -/

/-- A read that is answered; the relocation request of its other page follows (03 R61, 07 R120). -/
def State.readEnded (s : State) (a : HostAnswer) (other : Option ReadPage) : State :=
  other.elim { s with port := .idle, answers := s.answers ++ [a] }
    ({ s with port := .idle, answers := s.answers ++ [a] } : State).pageRequest

theorem State.link_readEnded (s : State) (a : HostAnswer) (other : Option ReadPage) :
    (s.readEnded a other).link = s.link := by
  cases other with
  | none => rfl
  | some p => exact State.pageRequest_link ..

theorem State.setProgress_taken (h : s.readPage b = some rp) (hle : s.readPages ≤ 2) (hwell : s.port.healthy = true)
    (x : List ReadByte) : s.setProgress b (.taken x none) =
      if (s.readPage (!b)).any ReadPage.open? then { s with port := s.port.progressed b (.taken x none) }
      else
        let y := ((s.readPage (!b)).map ReadPage.bytes).getD []
        s.readEnded (answerOf (if b then y ++ x else x ++ y)) (s.readPage (!b)) := by
  have hprog := Port.progressed_two h hle (.taken x none)
  have hfailed := not_failed_of_healthy h hle hwell
  rw [State.setProgress_eq h hprog, hprog]
  generalize s.readPage (!b) = other at *
  have hnone : (pagesOfRead b { rp with progress := .taken x none } other).any ReadPage.failed = false := by
    rw [any_pagesOfRead, hfailed]
    rfl
  have hopen : (pagesOfRead b { rp with progress := .taken x none } other).any ReadPage.open? =
      other.any ReadPage.open? := any_pagesOfRead ..
  split
  · exact State.advanceRead_open hnone (hopen.trans ‹_›)
  · rw [State.advanceRead_ended hnone (hopen.trans (Bool.eq_false_iff.mpr ‹_›)), bytes_pagesOfRead,
      foldl_pageRequest_pagesOfRead fun _ => rfl]
    rfl

/-! ### A page that ends without data (03 R62) -/

theorem ReadPage.open_withdraw (rp : ReadPage) : rp.withdraw.open? = rp.onLane := by
  unfold ReadPage.withdraw
  split <;> simp_all [ReadPage.open?, ReadPage.onLane]
  rename_i h
  cases hp : rp.progress <;> simp_all

theorem ReadPage.failedWith_withdraw (rp : ReadPage) (c : FaultCause) :
    rp.withdraw.failedWith c = rp.failedWith c := by
  unfold ReadPage.withdraw
  split
  · simp_all [ReadPage.failedWith]
  · rfl

theorem ReadPage.withdraw_of_onLane (h : rp.onLane = true) : rp.withdraw = rp := by
  unfold ReadPage.onLane at h
  unfold ReadPage.withdraw
  split
  · simp_all
  · rfl

theorem State.pageRequest_withdraw (s : State) (rp : ReadPage) : s.pageRequest rp.withdraw = s.pageRequest rp := by
  unfold ReadPage.withdraw
  split
  · rename_i h
    simp [State.pageRequest, h]
  · rfl

theorem State.advanceRead_failed (hfailed : ps.any ReadPage.failed = true) : s.advanceRead ps =
    if (ps.map ReadPage.withdraw).any ReadPage.open? then
      { s.withdrawHostReads with port := .reading (ps.map ReadPage.withdraw) }
    else
      (ps.map ReadPage.withdraw).foldl State.pageRequest
        (s.withdrawHostReads.answer (readAnswer (ps.map ReadPage.withdraw))) := by
  simp [State.advanceRead, hfailed]

theorem ReadPage.failedWith_failed (rp : ReadPage) (c d : FaultCause) :
    ({ rp with progress := .failed c } : ReadPage).failedWith d = (c == d) := by
  rw [Bool.eq_iff_iff]
  simp [ReadPage.failedWith]

/-- The one page that failed gives the answer. -/
theorem readAnswer_of_one_failed {c : FaultCause} (hc : c = .range ∨ c = .laneOffline)
    (hother : ∀ c, other.any (·.failedWith c) = false) :
    readAnswer (pagesOfRead b { rp with progress := .failed c } other) = .fault c := by
  rcases hc with rfl | rfl <;> simp [readAnswer, any_pagesOfRead, hother, ReadPage.failedWith_failed]

theorem State.setProgress_failed (h : s.readPage b = some rp) (hle : s.readPages ≤ 2) (hwell : s.port.healthy = true)
    {c : FaultCause} (hc : c = .range ∨ c = .laneOffline) : s.setProgress b (.failed c) =
      if (s.readPage (!b)).any ReadPage.onLane then { s.withdrawHostReads with port := s.port.progressed b (.failed c) }
      else s.withdrawHostReads.readEnded (.fault c) (s.readPage (!b)) := by
  have hprog := Port.progressed_two h hle (.failed c)
  have hfailed := not_failed_of_healthy h hle hwell
  rw [State.setProgress_eq h hprog, hprog]
  generalize s.readPage (!b) = other at *
  have hone : (pagesOfRead b { rp with progress := .failed c } other).any ReadPage.failed = true := by
    rw [any_pagesOfRead]
    rfl
  have hopen : (pagesOfRead b { rp with progress := .failed c } (other.map ReadPage.withdraw)).any ReadPage.open? =
      other.any ReadPage.onLane := by
    rw [any_pagesOfRead]
    cases other with
    | none => rfl
    | some p => exact p.open_withdraw
  have hanswer := readAnswer_of_one_failed (b := b) (rp := rp) (other := other.map ReadPage.withdraw) hc fun c => by
    cases other with
    | none => rfl
    | some p =>
      have hp : p.failedWith c = false := by
        simpa using failedWith_of_not_failed (ps := [p]) (by simpa using hfailed) c
      simpa [p.failedWith_withdraw] using hp
  rw [State.advanceRead_failed hone, map_pagesOfRead]
  change (if (pagesOfRead b { rp with progress := .failed c } (other.map ReadPage.withdraw)).any ReadPage.open? = true
    then _ else _) = _
  rw [hopen]
  split
  · rename_i hlane
    have hsame : other.map ReadPage.withdraw = other := by
      cases other with
      | none => rfl
      | some p => exact congrArg some (ReadPage.withdraw_of_onLane hlane)
    rw [hsame]
    rfl
  · change (pagesOfRead b { rp with progress := .failed c } (other.map ReadPage.withdraw)).foldl State.pageRequest
      (s.withdrawHostReads.answer
        (readAnswer (pagesOfRead b { rp with progress := .failed c } (other.map ReadPage.withdraw)))) = _
    rw [hanswer, State.answer_of_ne_retry (by simp), foldl_pageRequest_pagesOfRead fun _ => rfl]
    cases other with
    | none => rfl
    | some p => exact State.pageRequest_withdraw ..

end Sys2Proof.Machine
end

section
/-! PROOFS. The grants of read claims: what the grant itself leaves, and what the host port, the pool and the patrol
unit then make of it. -/

namespace Sys2Proof.Machine

variable {s t : State} {l : LaneId} {b ready : Bool} {k : Nat} {c : Claim} {rp : ReadPage} {sl : Slot}

/-! ### The grant of a claim (06 R97, R100, R101) -/

/-- A claim is granted on a lane that is ONLINE and held by no operation. -/
theorem State.arbiter_spec (h : s.arbiter l = some c) : (s.lane l).op = none ∧ (s.lane l).online = true := by
  unfold State.arbiter at h
  split at h
  · rename_i hfree
    simp only [State.laneFree, Bool.and_eq_true, Option.isNone_iff_eq_none] at hfree
    obtain ⟨⟨⟨-, honline⟩, -⟩, hop⟩ := hfree
    exact ⟨hop, honline⟩
  · cases h

theorem State.grant_eq_granted (h : (s.lane l).op = none) (hc : c ≠ .commit) (ready : Bool) :
    s.grant l c ready = s.granted l c ready none := by
  have hpass : ∀ x : Lane, x.passOverAfter c =
      if c.isForeground && x.claims.contains .commit then x.passOver + 1 else x.passOver := fun x => by
    cases c <;> simp_all [Lane.passOverAfter, Claim.isForeground]
  simp only [State.grant, State.granted, State.modLane, hpass, h, Option.isSome_none, Bool.false_eq_true, if_false]

/-- A read starts on the lane of its grant. -/
theorem State.startRead_granted (s : State) (l : LaneId) (c : Claim) (ready : Bool) (r : Reader) (n i q : Nat) :
    (s.granted l c ready none).startRead l r n i q ready = s.granted l c ready (some (.read r n i q)) := by
  cases l <;> rfl

@[simp] theorem State.port_granted (s : State) (l : LaneId) (c : Claim) (ready : Bool) (o : Option Op) :
    (s.granted l c ready o).port = s.port := rfl

@[simp] theorem State.answers_granted (s : State) (l : LaneId) (c : Claim) (ready : Bool) (o : Option Op) :
    (s.granted l c ready o).answers = s.answers := rfl

@[simp] theorem State.readPage_granted (s : State) (l : LaneId) (c : Claim) (ready : Bool) (o : Option Op) (b : Bool) :
    (s.granted l c ready o).readPage b = s.readPage b := rfl

theorem State.online_granted (s : State) (l : LaneId) (c : Claim) (ready : Bool) (o : Option Op) (m : LaneId) :
    ((s.granted l c ready o).lane m).online = (s.lane m).online := by
  cases l <;> cases m <;> rfl

theorem State.copyLane_granted (s : State) (l : LaneId) (c : Claim) (ready : Bool) (o : Option Op) (page : Nat) :
    (s.granted l c ready o).copyLane page = s.copyLane page := by
  have hentry : (s.granted l c ready o).entry page = s.entry page := rfl
  simp only [State.copyLane, hentry, State.online_granted]

theorem State.fillSource_granted (s : State) (l : LaneId) (c : Claim) (ready : Bool) (o : Option Op) (sl : Slot) :
    (s.granted l c ready o).fillSource sl = s.fillSource sl :=
  State.fillSource_congr rfl rfl (s.online_granted l c ready o)

theorem State.exhaustion_granted (h : (s.lane l).op = none) (c : Claim) (ready : Bool) :
    (s.granted l c ready none).exhaustion = s.exhaustion := by
  refine State.exhaustion_congr rfl fun m => ?_
  by_cases hm : m = l
  · subst hm
    rw [State.granted, State.lane_modLane]
    simp [Lane.committing, h]
  · rw [State.granted, State.lane_modLane_of_ne _ _ hm]

/-- What the block of a read claim makes of its grant is the end of the step, but for what every step judges anew. -/
theorem settlesTo_readGrant {f : State → State} (hq : s.Quiet) (h : s.arbiter l = some c) (hc : c ≠ .commit)
    (ht : f (s.granted l c ready none) = t) (hlink : t.link = s.link) :
    SettlesTo (.next (f (s.grant l c ready)).settle) t := by
  rw [State.grant_eq_granted (State.arbiter_spec h).1 hc, ht]
  exact settlesTo_next (hlink.trans hq.2)

/-! ### HOST_READ (03 R60, R62) -/

theorem settlesTo_hostReadGrant (hq : s.Quiet) (h : s.arbiter l = some (.hostRead b)) (hrp : s.readPage b = some rp)
    (ht : (s.granted l (.hostRead b) ready none).regrantPage l b ready rp = t) (hlink : t.link = s.link) :
    SettlesTo (exec (.hostReadGrant l ready) s) t := by
  have hpage : (s.granted l (.hostRead b) ready none).readPage b = some rp := hrp
  change SettlesTo (execHostReadGrant l ready s) t
  simp only [execHostReadGrant, h]
  refine settlesTo_readGrant (f := fun v => v.grantHostRead l b ready) hq h (by simp) ?_ hlink
  simp only [State.grantHostRead, hpage, ht]

@[simp] theorem State.link_withdrawHostReads (s : State) : s.withdrawHostReads.link = s.link := by
  simp [State.withdrawHostReads, State.withdrawBoth]

@[simp] theorem State.answers_withdrawHostReads (s : State) : s.withdrawHostReads.answers = s.answers := by
  simp [State.withdrawHostReads, State.withdrawBoth]

theorem State.regrantPage_beyond (h : s.cfg.capacity ≤ rp.page) (l : LaneId) (b ready : Bool) :
    s.regrantPage l b ready rp = s.setProgress b (.failed .range) := if_pos h

theorem State.regrantPage_of_no_source (h : rp.page < s.cfg.capacity)
    (hr : s.resolve rp.page rp.off rp.len = .noSource) (l : LaneId) (b ready : Bool) :
    s.regrantPage l b ready rp = s.setProgress b (.failed .laneOffline) := by
  rw [State.regrantPage, if_neg (Nat.not_le.mpr h), hr]

theorem State.regrantPage_of_whole {x : List ReadByte} (h : rp.page < s.cfg.capacity)
    (hr : s.resolve rp.page rp.off rp.len = .whole x) (l : LaneId) (b ready : Bool) :
    s.regrantPage l b ready rp = s.setProgress b (.taken x none) := by
  rw [State.regrantPage, if_neg (Nat.not_le.mpr h), hr]

theorem State.regrantPage_of_copy {p : PPage} {q : Nat} {got : List (Option ReadByte)} (h : rp.page < s.cfg.capacity)
    (hr : s.resolve rp.page rp.off rp.len = .copy p q got) (l : LaneId) (b ready : Bool) :
    s.regrantPage l b ready rp =
      if p.lane = l then (s.startRead l (.host b) rp.page p.index q ready).setProgress b (.granted l got)
      else (s.post p.lane (.hostRead b)).setProgress b (.waiting p.lane) := by
  rw [State.regrantPage, if_neg (Nat.not_le.mpr h), hr]

/-- The copy the map names is on the granted lane: it is read. -/
theorem hostReadGrant_reads (hq : s.Quiet) (h : s.arbiter l = some (.hostRead b)) (hwell : s.port.healthy = true)
    (hrp : s.readPage b = some rp) (hpage : rp.page < s.cfg.capacity)
    (hless : ∃ i < rp.len, s.slotByte rp.page (rp.off + i) = none) {p : PPage} {q : Nat}
    (he : s.entry rp.page = .mapped p q) (hl : p.lane = l) :
    SettlesTo (exec (.hostReadGrant l ready) s)
      { (s.granted l (.hostRead b) ready (some (.read (.host b) rp.page p.index q))) with
        port := s.port.progressed b (.granted l
          ((List.range rp.len).map (fun i => s.slotByte rp.page (rp.off + i)))) } := by
  have hsource : (s.granted l (.hostRead b) ready none).resolve rp.page rp.off rp.len =
      .copy p q (s.slotBytes rp.page rp.off rp.len) :=
    State.resolve_of_copy (State.bytesAtHand_eq_none (s := s) hless (by simp [he])) he
      (by rw [State.online_granted, hl, (State.arbiter_spec h).2])
  refine settlesTo_hostReadGrant hq h hrp ?_ rfl
  rw [State.regrantPage_of_copy (s := s.granted l (.hostRead b) ready none) hpage hsource, if_pos hl,
    State.startRead_granted]
  exact State.setProgress_open (s := s.granted l (.hostRead b) ready _) hrp hwell fun _ => rfl

/-- The page has no source, or a shrink removed it: it ends, and a read it leaves on no lane is answered with its
fault. -/
theorem hostReadGrant_fails (hq : s.Quiet) (h : s.arbiter l = some (.hostRead b)) (hwell : s.port.healthy = true)
    (hle : s.readPages ≤ 2) (hrp : s.readPage b = some rp) {cause : FaultCause}
    (hcause : (cause = .range ∧ s.cfg.capacity ≤ rp.page) ∨
      (cause = .laneOffline ∧ rp.page < s.cfg.capacity ∧ s.bytesAtHand rp.page rp.off rp.len = none ∧
        s.copyLane rp.page = none)) :
    SettlesTo (exec (.hostReadGrant l ready) s)
      (if (s.readPage (!b)).any ReadPage.onLane then
        { (s.granted l (.hostRead b) ready none).withdrawHostReads with port := s.port.progressed b (.failed cause) }
       else (s.granted l (.hostRead b) ready none).withdrawHostReads.readEnded (.fault cause) (s.readPage (!b))) := by
  have hfault : cause = .range ∨ cause = .laneOffline := hcause.imp And.left And.left
  have hgo : (s.granted l (.hostRead b) ready none).regrantPage l b ready rp =
      (s.granted l (.hostRead b) ready none).setProgress b (.failed cause) := by
    rcases hcause with ⟨rfl, hbeyond⟩ | ⟨rfl, hpage, hnone, hno⟩
    · exact State.regrantPage_beyond (s := s.granted l (.hostRead b) ready none) hbeyond ..
    · exact State.regrantPage_of_no_source (s := s.granted l (.hostRead b) ready none) hpage
        (State.resolve_of_no_source hnone ((s.copyLane_granted ..).trans hno)) ..
  have hset := State.setProgress_failed (s := s.granted l (.hostRead b) ready none) hrp hle hwell hfault
  rw [State.readPage_granted, State.port_granted] at hset
  refine settlesTo_hostReadGrant hq h hrp (hgo.trans hset) ?_
  split
  · exact State.link_withdrawHostReads _
  · exact (State.link_readEnded ..).trans (State.link_withdrawHostReads _)

/-- Slots or erased bytes now give the page: it is taken, and a read none of whose pages is open is answered. -/
theorem hostReadGrant_takes (hq : s.Quiet) (h : s.arbiter l = some (.hostRead b)) (hwell : s.port.healthy = true)
    (hle : s.readPages ≤ 2) (hrp : s.readPage b = some rp) (hpage : rp.page < s.cfg.capacity) {x : List ReadByte}
    (hx : s.bytesAtHand rp.page rp.off rp.len = some x) :
    SettlesTo (exec (.hostReadGrant l ready) s)
      (if (s.readPage (!b)).any ReadPage.open? then
        { (s.granted l (.hostRead b) ready none) with port := s.port.progressed b (.taken x none) }
       else
        let y := ((s.readPage (!b)).map ReadPage.bytes).getD []
        (s.granted l (.hostRead b) ready none).readEnded (answerOf (if b then y ++ x else x ++ y))
          (s.readPage (!b))) := by
  have hset := State.setProgress_taken (s := s.granted l (.hostRead b) ready none) hrp hle hwell x
  rw [State.readPage_granted, State.port_granted] at hset
  refine settlesTo_hostReadGrant hq h hrp ((State.regrantPage_of_whole (s := s.granted l (.hostRead b) ready none) hpage
    (State.resolve_of_hand hx) ..).trans hset) ?_
  split
  · rfl
  · exact State.link_readEnded ..

/-- The copy is now on the other lane: the claim moves there. -/
theorem hostReadGrant_moves (hq : s.Quiet) (h : s.arbiter l = some (.hostRead b)) (hwell : s.port.healthy = true)
    (hrp : s.readPage b = some rp) (hpage : rp.page < s.cfg.capacity)
    (hnone : s.bytesAtHand rp.page rp.off rp.len = none) {m : LaneId} (hm : s.copyLane rp.page = some m) (hne : m ≠ l) :
    SettlesTo (exec (.hostReadGrant l ready) s)
      { ((s.granted l (.hostRead b) ready none).post m (.hostRead b)) with
        port := s.port.progressed b (.waiting m) } := by
  obtain ⟨p, q, rfl, hcopy⟩ := State.resolve_of_copyLane (s := s.granted l (.hostRead b) ready none) hnone
    ((s.copyLane_granted ..).trans hm)
  refine settlesTo_hostReadGrant hq h hrp ?_ rfl
  rw [State.regrantPage_of_copy (s := s.granted l (.hostRead b) ready none) hpage hcopy, if_neg hne]
  exact State.setProgress_open (s := (s.granted l (.hostRead b) ready none).post _ _) hrp hwell fun _ => rfl

/-! ### FILL_READ (02 R38, R39) -/

theorem settlesTo_fillReadGrant (hq : s.Quiet) (h : s.arbiter l = some (.fillRead k))
    (ht : (s.granted l (.fillRead k) ready none).grantFillRead l k ready = t) (hlink : t.link = s.link) :
    SettlesTo (exec (.fillReadGrant l ready) s) t := by
  change SettlesTo (execFillReadGrant l ready s) t
  simp only [execFillReadGrant, h]
  exact settlesTo_readGrant (f := fun v => v.grantFillRead l k ready) hq h (by simp) ht hlink

theorem State.grantFillRead_of_full (hk : s.slot k = some sl) (hfull : sl.full = true) (l : LaneId) (ready : Bool) :
    s.grantFillRead l k ready = s.completeFill k erasedImage 0#8 := by
  simp only [State.grantFillRead, hk, hfull, if_true]

/-- A fill whose source needs no lane is done at once. -/
theorem State.grantFillRead_of_atOnce {r : List Byte × BitVec 8} (hk : s.slot k = some sl) (hfull : sl.full = false)
    (hr : (s.fillSource sl).atOnce = some r) (l : LaneId) (ready : Bool) :
    s.grantFillRead l k ready = s.completeFill k r.1 r.2 := by
  simp only [State.grantFillRead, hk, hfull, Bool.false_eq_true, if_false]
  cases hsource : s.fillSource sl <;> rw [hsource] at hr <;> cases hr <;> rfl

theorem State.grantFillRead_of_copy {p : PPage} {q : Nat} (hk : s.slot k = some sl) (hfull : sl.full = false)
    (hsource : s.fillSource sl = .copy p q) (l : LaneId) (ready : Bool) : s.grantFillRead l k ready =
      if p.lane = l then s.startRead l (.fill k) sl.page p.index q ready else s.post p.lane (.fillRead k) := by
  simp only [State.grantFillRead, hk, hfull, Bool.false_eq_true, if_false, hsource]

/-- The copy the map names is on the granted lane: it is read. -/
theorem fillReadGrant_reads (hq : s.Quiet) (h : s.arbiter l = some (.fillRead k)) (hk : s.slot k = some sl)
    (hfull : sl.full = false) (holder : s.olderComplete sl = none) {p : PPage} {q : Nat}
    (he : s.entry sl.page = .mapped p q) (hl : p.lane = l) :
    SettlesTo (exec (.fillReadGrant l ready) s)
      (s.granted l (.fillRead k) ready (some (.read (.fill k) sl.page p.index q))) := by
  have hsource : s.fillSource sl = .copy p q := by
    have honline : (s.lane p.lane).online = true := hl ▸ (State.arbiter_spec h).2
    simp [State.fillSource, holder, he, honline]
  refine settlesTo_fillReadGrant hq h ?_ rfl
  rw [State.grantFillRead_of_copy (s := s.granted l (.fillRead k) ready none) hk hfull
    ((s.fillSource_granted ..).trans hsource), if_pos hl, State.startRead_granted]

/-- A fill whose mask is full, or whose source needs no lane, is done at the grant. -/
theorem fillReadGrant_fills (hq : s.Quiet) (h : s.arbiter l = some (.fillRead k)) (hexh : s.exhaustion = false)
    (hk : s.slot k = some sl) {r : List Byte × BitVec 8}
    (hr : (sl.full = true ∧ r = (erasedImage, 0#8)) ∨ (sl.full = false ∧ (s.fillSource sl).atOnce = some r)) :
    SettlesTo (exec (.fillReadGrant l ready) s)
      ((s.granted l (.fillRead k) ready none).joined k (sl.filled r.1 r.2)) := by
  have hfill : (s.granted l (.fillRead k) ready none).grantFillRead l k ready =
      (s.granted l (.fillRead k) ready none).completeFill k r.1 r.2 := by
    rcases hr with ⟨hfull, rfl⟩ | ⟨hfull, hr⟩
    · exact State.grantFillRead_of_full (s := s.granted l (.fillRead k) ready none) hk hfull l ready
    · exact State.grantFillRead_of_atOnce (s := s.granted l (.fillRead k) ready none) hk hfull
        (by rw [s.fillSource_granted, hr]) l ready
  exact settlesTo_fillReadGrant hq h (hfill.trans (State.completeFill_joined
    ((State.exhaustion_granted (State.arbiter_spec h).1 ..).trans hexh) hk _ _)) rfl

/-- The copy is now on the other lane: the claim moves there. -/
theorem fillReadGrant_moves (hq : s.Quiet) (h : s.arbiter l = some (.fillRead k)) (hk : s.slot k = some sl)
    (hfull : sl.full = false) (holder : s.olderComplete sl = none) {m : LaneId} (hm : s.copyLane sl.page = some m)
    (hne : m ≠ l) :
    SettlesTo (exec (.fillReadGrant l ready) s) ((s.granted l (.fillRead k) ready none).post m (.fillRead k)) := by
  obtain ⟨p, q, hsource, rfl⟩ := State.fillSource_of_copyLane holder hm
  refine settlesTo_fillReadGrant hq h ?_ rfl
  rw [State.grantFillRead_of_copy (s := s.granted l (.fillRead k) ready none) hk hfull
    ((s.fillSource_granted ..).trans hsource), if_neg hne]

/-! ### RELOCATION_READ and PATROL_READ (07 R124, 08 R131) -/

theorem State.staleRead_iff (s : State) (n : Nat) (p : PPage) :
    s.staleRead n p = true ↔ s.cfg.capacity ≤ n ∨ s.hasSlot n = true ∨ s.mappedAt n p = false := by
  simp [State.staleRead, or_assoc]

theorem State.staleRead_of_mapped {n q : Nat} {p : PPage} (hpage : n < s.cfg.capacity) (hslot : s.hasSlot n = false)
    (he : s.entry n = .mapped p q) : s.staleRead n p = false ∧ s.entrySeq n = q := by
  have hmapped : s.mappedAt n p = true := by simp [State.mappedAt, he]
  refine ⟨?_, by simp [State.entrySeq, he]⟩
  simp [State.staleRead, hslot, hmapped, hpage]

theorem settlesTo_relocationReadGrant (hq : s.Quiet) (h : s.arbiter l = some .relocationRead)
    (ht : (s.granted l .relocationRead ready none).relocationGrant l ready = t) (hlink : t.link = s.link) :
    SettlesTo (exec (.relocationReadGrant l ready) s) t := by
  change SettlesTo (execRelocationReadGrant l ready s) t
  simp only [execRelocationReadGrant, h]
  exact settlesTo_readGrant (f := fun v => v.relocationGrant l ready) hq h (by simp) ht hlink

theorem State.relocationGrant_granted {n : Nat} {p : PPage} {rest : List (Nat × PPage)}
    (hlist : s.relocList = (n, p) :: rest) : (s.granted l .relocationRead ready none).relocationGrant l ready =
      if s.staleRead n p then { (s.granted l .relocationRead ready none) with relocList := rest }
      else s.granted l .relocationRead ready (some (.read .relocation n p.index (s.entrySeq n))) := by
  have hlist' : (s.granted l .relocationRead ready none).relocList = (n, p) :: rest := hlist
  simp only [State.relocationGrant, hlist', State.startRead_granted]
  rfl

theorem settlesTo_patrolReadGrant (hq : s.Quiet) (h : s.arbiter l = some .patrolRead)
    (ht : (s.granted l .patrolRead ready none).patrolGrant l ready = t) (hlink : t.link = s.link) :
    SettlesTo (exec (.patrolReadGrant l ready) s) t := by
  change SettlesTo (execPatrolReadGrant l ready s) t
  simp only [execPatrolReadGrant, h]
  exact settlesTo_readGrant (f := fun v => v.patrolGrant l ready) hq h (by simp) ht hlink

theorem State.patrolGrant_granted {n : Nat} {p : PPage} (hread : s.patrolRead = some (n, p)) :
    (s.granted l .patrolRead ready none).patrolGrant l ready =
      if s.staleRead n p then { (s.granted l .patrolRead ready none) with patrolRead := none }
      else s.granted l .patrolRead ready (some (.read .patrol n p.index (s.entrySeq n))) := by
  have hread' : (s.granted l .patrolRead ready none).patrolRead = some (n, p) := hread
  simp only [State.patrolGrant, hread', State.startRead_granted]
  rfl

/-! ### All read claims -/

/-- Settles O38, claim by claim: a host read that reads, and one that fails, is taken or moves; a fill that reads, and
one that is done at once or moves; a relocation entry and a patrol record that hold or are stale. -/
theorem readGrantsStart : Obligations.ReadGrantsStart := by
  intro s l ready hq
  refine ⟨fun b h hwell rp hrp hpage hless p q he hl => hostReadGrant_reads hq h hwell hrp hpage hless he hl, ?_,
    fun k h sl hk hfull holder p q he hl => fillReadGrant_reads hq h hk hfull holder he hl, ?_,
    fun h r hr hlane => ?_, fun h r hr hlane => ?_⟩
  · intro b h hwell hle rp hrp o g hand other ended
    refine ⟨fun cause hcause => ?_, fun hpage x hx => ?_,
      fun hpage hnone m hm hne => hostReadGrant_moves hq h hwell hrp hpage hnone hm hne⟩
    · have hstep := hostReadGrant_fails (ready := ready) hq h hwell hle hrp hcause
      refine ⟨fun hoff => ?_, fun hon => ?_⟩
      · rw [if_neg (Bool.eq_false_iff.mp hoff), State.readEnded, State.answers_withdrawHostReads,
          State.answers_granted] at hstep
        exact hstep
      · rw [if_pos hon] at hstep
        exact hstep
    · have hstep := hostReadGrant_takes (ready := ready) hq h hwell hle hrp hpage hx
      refine ⟨fun hended => ?_, fun hopen => ?_⟩
      · rw [if_neg (Bool.eq_false_iff.mp hended), State.readEnded, State.answers_granted] at hstep
        exact hstep
      · rw [if_pos hopen] at hstep
        exact hstep
  · intro k h hexh sl hk o g filled
    have hfill := fun r => fillReadGrant_fills (ready := ready) (r := r) hq h hexh hk
    have hsource := fun {src : FillSource} r (hfull : sl.full = false) (hsrc : s.fillSource sl = src)
      (hr : src.atOnce = some r) => hfill r (.inr ⟨hfull, hsrc ▸ hr⟩)
    exact ⟨fun hfull => hfill _ (.inl ⟨hfull, rfl⟩),
      fun hfull older holder => hsource _ hfull (State.fillSource_of_older holder) rfl,
      fun hfull hnone =>
        ⟨fun he => hsource _ hfull (State.fillSource_of_unmapped hnone he) rfl,
          fun he hno => hsource _ hfull (State.fillSource_of_no_copy hnone he hno) rfl,
          fun m hm hne => fillReadGrant_moves hq h hk hfull hnone hm hne⟩⟩
  · obtain ⟨n, p⟩ := r
    obtain ⟨rest, hlist⟩ : ∃ rest, s.relocList = (n, p) :: rest := List.head?_eq_some_iff.mp hr
    have hgrant := State.relocationGrant_granted (l := l) (ready := ready) hlist
    refine ⟨fun hpage hslot p' q he hp => ?_, fun hstale => ?_⟩
    · obtain rfl : p' = p := hp
      obtain ⟨hfresh, hseq⟩ := State.staleRead_of_mapped hpage hslot he
      rw [hfresh, hseq] at hgrant
      exact settlesTo_relocationReadGrant hq h hgrant rfl
    · rw [if_pos ((s.staleRead_iff n p).mpr hstale)] at hgrant
      rw [hlist]
      exact settlesTo_relocationReadGrant hq h hgrant rfl
  · obtain ⟨n, p⟩ := r
    have hgrant := State.patrolGrant_granted (l := l) (ready := ready) hr
    refine ⟨fun hpage hslot p' q he hp => ?_, fun hstale => ?_⟩
    · obtain rfl : p' = p := hp
      obtain ⟨hfresh, hseq⟩ := State.staleRead_of_mapped hpage hslot he
      rw [hfresh, hseq] at hgrant
      exact settlesTo_patrolReadGrant hq h hgrant rfl
    · rw [if_pos ((s.staleRead_iff n p).mpr hstale)] at hgrant
      exact settlesTo_patrolReadGrant hq h hgrant rfl

end Sys2Proof.Machine
end

section

/-! PROOFS. The windows of 04 R65 to R67: what covers a page, the effective protection and commit mode, and the sampled WPROT. -/

namespace Sys2Proof.Machine

variable {s t : State} {page : Nat}

/-! ### Protections and commit modes -/

theorem Protection.ofCode_rank (p : Protection) : Protection.ofCode p.rank = some p := by cases p <;> rfl

theorem Protection.rank_injective : Function.Injective Protection.rank := fun p q h =>
  Option.some_injective _ (by rw [← p.ofCode_rank, h, q.ofCode_rank])

/-- The bound that characterises the more restrictive of two protections. -/
theorem Protection.rank_max_le_iff (p q : Protection) (n : Nat) :
    (p.max q).rank ≤ n ↔ p.rank ≤ n ∧ q.rank ≤ n := by
  unfold Protection.max
  split <;> omega

/-- Two protections with the same upper bounds are one protection. -/
theorem Protection.eq_of_rank_le_iff {p q : Protection} (h : ∀ n, p.rank ≤ n ↔ q.rank ≤ n) : p = q :=
  Protection.rank_injective (eq_of_forall_ge_iff h)

theorem CommitMode.eq_of_sync_iff {m k : CommitMode} (h : m = .sync ↔ k = .sync) : m = k := by
  cases m with
  | sync => exact (h.mp rfl).symm
  | posted =>
    cases k with
    | posted => rfl
    | sync => exact h.mpr rfl

/-! ### The windows that cover a page -/

theorem Window.covers_iff (w : Window) (capacity page : Nat) :
    w.covers capacity page = true ↔ w.first ≤ page ∧ page ≤ w.last ∧ page < capacity := by
  simp [Window.covers, and_assoc]

theorem State.mem_covering {w : Window} :
    w ∈ s.covering page ↔ w ∈ s.cfg.windows ∧ w.covers s.cfg.capacity page = true :=
  List.mem_filter

/-- The covering windows depend on the capacity and on which windows there are. -/
theorem State.mem_covering_congr (hcap : t.cfg.capacity = s.cfg.capacity)
    (hwin : ∀ w, w ∈ t.cfg.windows ↔ w ∈ s.cfg.windows) (w : Window) :
    w ∈ t.covering page ↔ w ∈ s.covering page := by
  rw [State.mem_covering, State.mem_covering, hcap, hwin]

/-! ### The effective protection and commit mode (04 R66) -/

/-- The effective protection is the least upper bound of the covering windows' protections. -/
theorem State.rank_protection_le_iff {n : Nat} :
    (s.protection page).rank ≤ n ↔ ∀ w ∈ s.covering page, w.protection.rank ≤ n := by
  unfold State.protection
  induction s.covering page with
  | nil => simp [Protection.rank]
  | cons w ws ih => rw [List.foldr_cons, Protection.rank_max_le_iff, ih, List.forall_mem_cons]

theorem State.rank_le_protection {w : Window} (hw : w ∈ s.covering page) :
    w.protection.rank ≤ (s.protection page).rank :=
  State.rank_protection_le_iff.mp le_rfl w hw

theorem State.protection_of_uncovered (h : s.covering page = []) : s.protection page = .opened := by
  simp [State.protection, h]

/-- A bound below a protection that no covering window has would be a smaller upper bound. -/
theorem State.exists_covering_protection (h : s.covering page ≠ []) :
    ∃ w ∈ s.covering page, w.protection = s.protection page := by
  by_contra hnone
  have hlt : ∀ w ∈ s.covering page, w.protection.rank < (s.protection page).rank := fun w hw =>
    (State.rank_le_protection hw).lt_of_ne fun heq => hnone ⟨w, hw, Protection.rank_injective heq⟩
  have hbelow : (s.protection page).rank ≤ (s.protection page).rank - 1 :=
    State.rank_protection_le_iff.mpr fun w hw => Nat.le_sub_one_of_lt (hlt w hw)
  obtain ⟨w, hw⟩ := List.exists_mem_of_ne_nil _ h
  have hpos := hlt w hw
  omega

theorem State.commitMode_eq_sync_iff :
    s.commitMode page = .sync ↔ ∃ w ∈ s.covering page, w.commitMode = .sync := by
  simp [State.commitMode]

/-- Protection and commit mode depend on the bounds and on the presence of SYNC among the covering windows alone. -/
theorem State.effective_congr
    (hprot : ∀ n, (∀ w ∈ t.covering page, w.protection.rank ≤ n) ↔ ∀ w ∈ s.covering page, w.protection.rank ≤ n)
    (hsync : (∃ w ∈ t.covering page, w.commitMode = .sync) ↔ ∃ w ∈ s.covering page, w.commitMode = .sync) :
    t.protection page = s.protection page ∧ t.commitMode page = s.commitMode page := by
  refine ⟨Protection.eq_of_rank_le_iff fun n => ?_, CommitMode.eq_of_sync_iff ?_⟩
  · rw [State.rank_protection_le_iff, State.rank_protection_le_iff, hprot]
  · rw [State.commitMode_eq_sync_iff, State.commitMode_eq_sync_iff, hsync]

/-- Two windows of one range join into one: they cover the page together or not at all. -/
theorem State.effective_join {first last : Nat} {p q : Protection} {m k : CommitMode} {rest : List Window}
    (hcap : t.cfg.capacity = s.cfg.capacity)
    (htwo : t.cfg.windows = ⟨first, last, p, m⟩ :: ⟨first, last, q, k⟩ :: rest)
    (hone : s.cfg.windows = ⟨first, last, p.max q, if m = .sync then .sync else k⟩ :: rest) :
    t.protection page = s.protection page ∧ t.commitMode page = s.commitMode page := by
  have hsame (r : Protection) (j : CommitMode) : Window.covers ⟨first, last, r, j⟩ s.cfg.capacity page =
      Window.covers ⟨first, last, p, m⟩ s.cfg.capacity page := rfl
  have hjoin : (if m = .sync then .sync else k) = CommitMode.sync ↔ m = .sync ∨ k = .sync := by
    split <;> simp [*]
  by_cases hcov : Window.covers ⟨first, last, p, m⟩ s.cfg.capacity page = true
  · refine State.effective_congr (fun n => ?_) ?_ <;>
      simp only [State.covering, htwo, hone, hcap, List.filter_cons, hsame q k, hsame (p.max q), if_pos hcov]
    · simp only [List.forall_mem_cons, Protection.rank_max_le_iff, and_assoc]
    · simp only [List.exists_mem_cons_iff, hjoin, or_assoc]
  · have hrest : t.covering page = s.covering page := by
      simp only [State.covering, htwo, hone, hcap, List.filter_cons, hsame q k, hsame (p.max q), if_neg hcov]
    exact State.effective_congr (fun n => by rw [hrest]) (by rw [hrest])

/-- Settles O16: the effective protection is the least upper bound of the covering windows', which gives the order, the
repetition and the joined windows at once. -/
theorem effectiveProtection : Obligations.EffectiveProtection := by
  intro s page
  refine ⟨fun w hw => State.rank_le_protection hw, ?_, State.commitMode_eq_sync_iff, fun w => ?_,
    fun t hcap hwin => ?_, fun first last p q m k rest t u ht hu => ?_⟩
  · by_cases h : s.covering page = []
    · exact .inr ⟨h, State.protection_of_uncovered h⟩
    · exact .inl (State.exists_covering_protection h)
  · rw [State.mem_covering, Window.covers_iff]
  · have hmem := State.mem_covering_congr (page := page) hcap hwin
    exact State.effective_congr (fun n => by simp only [hmem]) (by simp only [hmem])
  · subst ht hu
    exact State.effective_join rfl rfl rfl

/-! ### The sampled WPROT (04 R67) -/

theorem State.setWprot_of_alive (h : s.alive = true) (level : Bool) :
    s.setWprot level = { s with pins := { s.pins with wprot := level }, wprotSampled := level } := by
  simp [State.setWprot, h]

@[simp] theorem State.protection_setWprot (level : Bool) :
    (s.setWprot level).protection page = s.protection page := rfl

/-- While the part acts, the new level write-protects the PIN pages; the other protections decide their pages alone. -/
theorem State.writeProtected_setWprot (h : s.alive = true) (level : Bool) :
    (s.setWprot level).writeProtected page =
      (s.protection page == .locked || s.protection page == .sealed || (s.protection page == .pin && level)) := by
  have hsampled : (s.setWprot level).wprotSampled = level := by rw [State.setWprot_of_alive h]
  rw [State.writeProtected, State.protection_setWprot, hsampled]
  cases s.protection page with
  | opened | locked | sealed => rfl
  | pin => cases level <;> rfl

/-- Settles O27, by the protection of the page under each level. -/
theorem writeProtectSampled : Obligations.WriteProtectSampled := by
  intro s h
  refine ⟨⟨s.setWprot true, rfl, State.setWprot_of_alive h true, fun page => ?_⟩,
    ⟨s.setWprot false, rfl, State.setWprot_of_alive h false, fun page => ?_⟩⟩
  · rw [State.writeProtected_setWprot h]
    cases s.protection page <;> rfl
  · rw [State.writeProtected_setWprot h, Bool.and_false, Bool.or_false]

end Sys2Proof.Machine
end

section
/-! PROOFS. The claims that follow from the state: how a step can end, and that each such end keeps COMMIT, MARK and
RELOCATION_READ claims where the state puts them. -/

namespace Sys2Proof.Machine

variable {s t u : State}

/-! ### How a step ends -/

/-- The state is the given one but for the queue of commands, the serial port and WPROT, on which no kept claim rests. -/
def ClaimsUntouched (s t : State) : Prop :=
  ∃ pending serial wprot sampled,
    t = { s with pending := pending, serial := serial, pins := { s.pins with wprot := wprot }, wprotSampled := sampled }

/-- The state holds no claim and nothing that asks for one, as a reset or a loss of power leaves it. -/
structure NothingClaimed (t : State) : Prop where
  queue : t.commitQueue = []
  relocList : t.relocList = []
  lane : ∀ l, (t.lane l).claims = [] ∧ (t.lane l).markList = []

/-- A step settles, or touches nothing that a kept claim rests on, or clears all of it. -/
def StepEnds (s t : State) : Prop := (∃ u : State, t = u.settle) ∨ ClaimsUntouched s t ∨ NothingClaimed t

theorem ClaimsUntouched.refl (s : State) : ClaimsUntouched s s := ⟨_, _, _, _, rfl⟩

/-- Every next state that the outcome gives ends a step. -/
def OutcomeEnds (s : State) (o : Host.Outcome State Fault Refusal) : Prop := ∀ t, o = .next t → StepEnds s t

theorem outcomeEnds_next (h : StepEnds s t) : OutcomeEnds s (.next t) := fun _ e => by cases e; exact h

theorem outcomeEnds_settle : OutcomeEnds s (.next u.settle) := outcomeEnds_next (.inl ⟨u, rfl⟩)

theorem outcomeEnds_same : OutcomeEnds s (.next s) := outcomeEnds_next (.inr (.inl (.refl s)))

theorem outcomeEnds_refused {r : Refusal} : OutcomeEnds s (.refused r) := fun _ e => by cases e

theorem outcomeEnds_fault {r : Fault} : OutcomeEnds s (.fault r) := fun _ e => by cases e

theorem outcomeEnds_ite {p : Prop} [Decidable p] {o q : Host.Outcome State Fault Refusal} (ho : OutcomeEnds s o)
    (hq : OutcomeEnds s q) : OutcomeEnds s (if p then o else q) := by
  split
  · exact ho
  · exact hq

theorem outcomeEnds_exchange {params : Nat} {refused : Option Nat} {accepted : State} :
    OutcomeEnds s (s.exchange params refused accepted) := by
  refine outcomeEnds_ite (outcomeEnds_ite ?_ outcomeEnds_same) outcomeEnds_refused
  split
  · exact outcomeEnds_next (.inr (.inl ⟨_, _, _, _, rfl⟩))
  · exact outcomeEnds_settle

theorem nothingClaimed_powerUp (s : State) (straps : Straps) (pwarn wprot : Bool) :
    NothingClaimed (s.powerUp straps pwarn wprot) :=
  ⟨rfl, rfl, fun l => by cases l <;> exact ⟨rfl, rfl⟩⟩

theorem nothingClaimed_powerDown (s : State) : NothingClaimed s.powerDown :=
  ⟨rfl, rfl, fun l => by cases l <;> exact ⟨rfl, rfl⟩⟩

theorem nothingClaimed_enterReset (s : State) (straps : Straps) : NothingClaimed (s.enterReset straps) :=
  ⟨rfl, rfl, fun l => by cases l <;> exact ⟨rfl, rfl⟩⟩

theorem outcomeEnds_setWprot {level : Bool} : OutcomeEnds s (.next (s.setWprot level)) :=
  outcomeEnds_next (.inr (.inl ⟨_, _, _, _, rfl⟩))

/-- A completed page read ends its step, whatever its block makes of the bytes. -/
theorem outcomeEnds_pageRead {bytes : List Byte} {o : Host.Outcome State Fault Refusal} (ho : OutcomeEnds s o) :
    OutcomeEnds s (if bytes.length = Config.pageBytes then o else .fault .transferLength) :=
  outcomeEnds_ite ho outcomeEnds_fault

/-- How every command ends its step. -/
theorem exec_ends (c : Instr) (s : State) : OutcomeEnds s (exec c s) := by
  cases c with
  | powerOn => exact outcomeEnds_next (.inr (.inr (nothingClaimed_powerUp ..)))
  | powerLoss => exact outcomeEnds_ite (outcomeEnds_next (.inr (.inr (nothingClaimed_powerDown s)))) outcomeEnds_same
  | resetAssertion =>
    exact outcomeEnds_ite (outcomeEnds_next (.inr (.inr (nothingClaimed_enterReset ..)))) outcomeEnds_same
  | resetDeassertion | patrolTimerExpiry | readySeen => exact outcomeEnds_ite outcomeEnds_settle outcomeEnds_same
  | pwarnAssertion | pwarnDeassertion | mountWaitReady | popNoticeSent => exact outcomeEnds_settle
  | wprotAssertion | wprotDeassertion => exact outcomeEnds_setWprot
  | hostWrite | hostRead | holdTimerExpiry =>
    exact outcomeEnds_ite (outcomeEnds_ite outcomeEnds_settle outcomeEnds_same) outcomeEnds_refused
  | readTimeout | programTimeout | readyTimeout | hostReadGrant | fillReadGrant | recordProgramGrant | commitGrant
  | relocationReadGrant | markGrant | patrolReadGrant | commitProgramDone | recordProgramDone | markProgramDone =>
    simp only [exec, execReadTimeout, execProgramTimeout, execReadyTimeout, execHostReadGrant, execFillReadGrant,
      execRecordProgramGrant, execCommitGrant, execRelocationReadGrant, execMarkGrant, execPatrolReadGrant,
      execCommitProgramDone, execRecordProgramDone, execMarkProgramDone]
    split
    · exact outcomeEnds_settle
    · exact outcomeEnds_same
  | systemPageReadDone | scanReadDone => exact outcomeEnds_pageRead outcomeEnds_settle
  | hostReadDone | fillReadDone | relocationReadDone | patrolReadDone | commitVerifyDone | recordReadBackDone =>
    refine outcomeEnds_pageRead ?_
    split
    · exact outcomeEnds_settle
    · exact outcomeEnds_same
  | getStatus | getConfig | getPools | getCounters | inspectLogical | inspectPhysical | popNotice | clearFaults | resume
  | saveConfig | flush | quiesce | format | remount | setHoldTime | setPatrolInterval | setMigrationThreshold
  | setWearLimit | setSoftLimit | setReserveFloor | setProgramTimeLimit | setAttentionMask =>
    exact outcomeEnds_exchange
  | setWindow | sealWindow | setCapacity =>
    simp only [exec, execSetWindow, execSealWindow, execSetCapacity]
    split <;> exact outcomeEnds_exchange
  | unknownCommand =>
    simp only [exec, execUnknownCommand]
    split
    · exact outcomeEnds_exchange
    · exact outcomeEnds_ite outcomeEnds_same outcomeEnds_refused
  | badFrame =>
    exact outcomeEnds_ite (outcomeEnds_ite (outcomeEnds_next (.inr (.inl ⟨_, _, _, _, rfl⟩))) outcomeEnds_same)
      outcomeEnds_refused
  | selectStart => exact outcomeEnds_ite (outcomeEnds_next (.inr (.inl ⟨_, _, _, _, rfl⟩))) outcomeEnds_same
  | selectEnd => exact outcomeEnds_next (.inr (.inl ⟨_, _, _, _, rfl⟩))

theorem ClaimsUntouched.of_pending {rest : List Instr} (h : ClaimsUntouched { s with pending := rest } t) :
    ClaimsUntouched s t := by
  obtain ⟨_, _, _, _, rfl⟩ := h
  exact ⟨_, _, _, _, rfl⟩

theorem step_ends (h : step s = .next t) : StepEnds s t := by
  unfold step at h
  split at h
  · exact outcomeEnds_same t h
  · rcases exec_ends _ _ t h with hsettle | hsame | hclear
    · exact .inl hsettle
    · exact .inr (.inl hsame.of_pending)
    · exact .inr (.inr hclear)

/-! ### Each end keeps the claims -/

/-- The three claims that follow from the state. -/
structure State.KeptClaimsFollow (s : State) : Prop where
  commit : s.CommitClaimsFollow
  mark : s.MarkClaimsFollow
  relocation : s.RelocationClaimsFollow

theorem keptClaims_settle (u : State) : u.settle.KeptClaimsFollow :=
  ⟨commitClaims_refresh _, markClaims_refresh _, relocationClaims_refresh _⟩

theorem NothingClaimed.keptClaims (h : NothingClaimed t) : t.KeptClaimsFollow where
  commit l := by simp [h.queue, (h.lane l).1]
  mark l := by simp [State.wantsMark, (h.lane l).1, (h.lane l).2]
  relocation := by
    refine ⟨fun ⟨l, hl⟩ => ?_, fun _ _ _ _ => h.relocList⟩
    rw [(h.lane l).1] at hl
    cases hl

theorem ClaimsUntouched.commitClaims (h : ClaimsUntouched s t) (hs : s.CommitClaimsFollow) : t.CommitClaimsFollow := by
  obtain ⟨_, _, _, _, rfl⟩ := h
  intro l
  cases l
  · exact hs .a
  · exact hs .b

theorem ClaimsUntouched.markClaims (h : ClaimsUntouched s t) (hs : s.MarkClaimsFollow) : t.MarkClaimsFollow := by
  obtain ⟨_, _, _, _, rfl⟩ := h
  intro l
  cases l
  · exact hs .a
  · exact hs .b

theorem ClaimsUntouched.lane (h : ClaimsUntouched s t) (l : LaneId) : t.lane l = s.lane l := by
  obtain ⟨_, _, _, _, rfl⟩ := h
  cases l <;> rfl

theorem ClaimsUntouched.relocationClaims (h : ClaimsUntouched s t) (hs : s.RelocationClaimsFollow) :
    t.RelocationClaimsFollow := by
  have hlane := h.lane
  obtain ⟨_, _, _, _, rfl⟩ := h
  simp only [State.RelocationClaimsFollow, hlane]
  exact hs

/-- Settles O9, by how the step ends: the end of a step posts and withdraws the three claims as the state asks, a reset
leaves none and nothing that asks for one, and any other step touches nothing on which they rest. -/
theorem claimsFollowState : Obligations.ClaimsFollowState := by
  intro s t h
  rcases step_ends h with ⟨u, rfl⟩ | hsame | hclear
  · have hkept := keptClaims_settle u
    exact ⟨fun _ => hkept.commit, fun _ => hkept.mark, fun _ => hkept.relocation⟩
  · exact ⟨hsame.commitClaims, hsame.markClaims, hsame.relocationClaims⟩
  · have hkept := hclear.keptClaims
    exact ⟨fun _ => hkept.commit, fun _ => hkept.mark, fun _ => hkept.relocation⟩

end Sys2Proof.Machine
end

section
/-! PROOFS. A programmed copy reads back (O13): big-endian fields, the check byte of an undisturbed codeword, the cut of
64 data bytes into codewords, and the tag between its image and its reading. -/

namespace Sys2Proof.Machine

/-! ### Big-endian fields -/

theorem beNat_append_singleton (bs : List Byte) (b : Byte) : beNat (bs ++ [b]) = beNat bs * 256 + b.toNat := by
  simp [beNat]

theorem beNat_beBytes (n w : Nat) : beNat (beBytes n w) = w % 256 ^ n := by
  induction n generalizing w with
  | zero => simp [beBytes, beNat, Nat.mod_one]
  | succ n ih =>
    rw [beBytes, beNat_append_singleton, ih, BitVec.toNat_ofNat, pow_succ' 256 n, Nat.mod_mul]
    omega

/-- A field wide enough for its number gives it back. -/
theorem beNat_beBytes_of_lt {n w : Nat} (h : w < 256 ^ n) : beNat (beBytes n w) = w := by
  rw [beNat_beBytes, Nat.mod_eq_of_lt h]

/-! ### The check byte of an undisturbed codeword -/

theorem checkLow_lt (bits : List Bool) : checkLow bits < 128 := by
  have hpos : ∀ p ∈ bits.zip dataPositions, p.2 < 2 ^ 7 := fun p hp =>
    (by decide : ∀ n ∈ dataPositions, n < 2 ^ 7) p.2 (List.of_mem_zip hp).2
  unfold checkLow
  revert hpos
  induction bits.zip dataPositions with
  | nil => decide
  | cons p l ih =>
    intro hpos
    obtain ⟨hp, hl⟩ := List.forall_mem_cons.1 hpos
    rw [List.foldr_cons]
    split
    · exact Nat.xor_lt_two_pow (n := 7) hp (ih hl)
    · exact ih hl

theorem parity_append_singleton (bits : List Bool) (b : Bool) : parity (bits ++ [b]) = (parity bits ^^ b) := by
  induction bits with
  | nil => simp [parity]
  | cons c l ih => simpa [parity] using congrArg (c ^^ ·) ih

theorem lowBits_succ (n w : Nat) : lowBits (n + 1) w = lowBits n w ++ [w.testBit n] := by
  simp [lowBits, List.range_succ]

/-- The lower bits of a number do not see what stands above them. -/
theorem lowBits_mod (n w : Nat) : lowBits n (w % 2 ^ n) = lowBits n w := by
  refine List.map_congr_left fun i hi => ?_
  rw [Nat.testBit_mod_two_pow, decide_eq_true (List.mem_range.1 hi), Bool.true_and]

/-- The seven check bits of a codeword. -/
theorem checkByte_mod (cw : List Byte) : (checkByte cw).toNat % 128 = checkLow (dataBits cw) := by
  have := checkLow_lt (dataBits cw)
  rw [checkByte, BitVec.toNat_ofNat]
  split <;> omega

/-- The parity bit above them. -/
theorem checkByte_testBit (cw : List Byte) :
    (checkByte cw).toNat.testBit 7 = (parity (dataBits cw) ^^ parity (lowBits 7 (checkLow (dataBits cw)))) := by
  have hlow := checkLow_lt (dataBits cw)
  rw [checkByte, BitVec.toNat_ofNat, Nat.testBit_eq_decide_div_mod_eq]
  split
  · next h => simpa [h] using by omega
  · next h => simpa [Bool.eq_false_iff.2 h] using by omega

/-- Codeword and check byte together have even parity. -/
theorem parity_checkByte (cw : List Byte) : parity (lowBits 8 (checkByte cw).toNat) = parity (dataBits cw) := by
  have hlow : lowBits 7 (checkByte cw).toNat = lowBits 7 (checkLow (dataBits cw)) :=
    checkByte_mod cw ▸ (lowBits_mod 7 _).symm
  rw [lowBits_succ, parity_append_singleton, hlow, checkByte_testBit, Bool.xor_comm, Bool.xor_assoc, Bool.xor_self,
    Bool.xor_false]

/-- A codeword read as it was programmed is CLEAN. -/
theorem decodeCodeword_checkByte (cw : List Byte) : decodeCodeword cw (checkByte cw) = (.clean, cw) := by
  simp [decodeCodeword, checkByte_mod, parity_checkByte]

/-- Decoding keeps the length of a codeword. -/
theorem length_decodeCodeword (cw : List Byte) (chk : Byte) : (decodeCodeword cw chk).2.length = cw.length := by
  unfold decodeCodeword
  dsimp only
  split_ifs
  · rfl
  · split <;> simp [flipBit]
  · rfl
  · rfl

/-! ### Codewords of the data bytes -/

theorem length_codeword {data : List Byte} {i : Nat} (h : 8 * i + 8 ≤ data.length) : (codeword data i).length = 8 := by
  rw [codeword, List.length_take, List.length_drop]
  omega

/-- The bytes behind a codeword do not count. -/
theorem codeword_append {data : List Byte} (rest : List Byte) {i : Nat} (h : 8 * i + 8 ≤ data.length) :
    codeword (data ++ rest) i = codeword data i := by
  rw [codeword, List.drop_append_of_le_length (by omega), List.take_append_of_le_length (by rw [List.length_drop]; omega),
    codeword]

/-- The codewords in order are the bytes. -/
theorem flatMap_codeword (data : List Byte) (n : Nat) : (List.range n).flatMap (codeword data) = data.take (8 * n) := by
  induction n with
  | zero => simp
  | succ n ih => rw [List.range_succ, List.flatMap_append, ih, List.flatMap_singleton, codeword, Nat.mul_succ, List.take_add]

theorem length_flatMap_range {f : Nat → List Byte} {n : Nat} (hf : ∀ i < n, (f i).length = 8) :
    ((List.range n).flatMap f).length = 8 * n := by
  induction n with
  | zero => rfl
  | succ n ih =>
    rw [List.range_succ, List.flatMap_append, List.length_append, ih fun i hi => hf i (by omega), List.flatMap_singleton,
      hf n (by omega), Nat.mul_succ]

/-- Pieces of eight bytes put together are the codewords of the whole. -/
theorem codeword_flatMap_range {f : Nat → List Byte} {n i : Nat} (hf : ∀ i < n, (f i).length = 8) (hi : i < n) :
    codeword ((List.range n).flatMap f) i = f i := by
  induction n with
  | zero => omega
  | succ n ih =>
    have hlen := length_flatMap_range fun i hi => hf i (Nat.lt_succ_of_lt hi)
    rw [List.range_succ, List.flatMap_append, List.flatMap_singleton]
    rcases Nat.lt_succ_iff_lt_or_eq.1 hi with hlt | rfl
    · rw [codeword_append _ (by omega), ih (fun i hi => hf i (by omega)) hlt]
    · rw [codeword, ← hlen, List.drop_left, List.take_of_length_le (hf i hi).le]

/-! ### The tag -/

/-- The fields of a tag fit their widths (Table 12.1). -/
structure Tag.Fits (t : Tag) : Prop where
  logical : t.logical < 65536
  seq : t.seq < 2 ^ 48
  wear : t.wear < 2 ^ 24
  soft : t.soft < 256

theorem Tag.length_bytes (t : Tag) : t.bytes.length = 16 := rfl

theorem Tag.take_bytes (t : Tag) : t.bytes.take 14 = t.body := rfl

theorem Tag.crc_bytes (t : Tag) : (t.bytes.drop 14).take 2 = beBytes 2 (crc16 t.body).toNat := rfl

/-- A tag that does not begin as an erased page does is read as it was written. -/
theorem readTag_bytes {t : Tag} (hkind : t.kind ≠ erasedByte) (hfits : t.Fits) : readTag t.bytes = .good t := by
  have hblank : t.bytes.all (· == erasedByte) = false := by
    rw [show t.bytes = t.kind :: t.bytes.tail from rfl, List.all_cons, beq_false_of_ne hkind, Bool.false_and]
  have hcrc : crc16 (t.bytes.take 14) = BitVec.ofNat 16 (beNat ((t.bytes.drop 14).take 2)) := by
    rw [t.take_bytes, t.crc_bytes, beNat_beBytes_of_lt (crc16 t.body).isLt, BitVec.ofNat_toNat, BitVec.setWidth_eq]
  rw [readTag, hblank, if_neg Bool.false_ne_true, if_pos hcrc]
  have hlogical : beNat ((t.bytes.drop 1).take 2) = t.logical := beNat_beBytes_of_lt (n := 2) hfits.logical
  have hseq : beNat ((t.bytes.drop 3).take 6) = t.seq := beNat_beBytes_of_lt (n := 6) hfits.seq
  have hwear : beNat ((t.bytes.drop 9).take 3) = t.wear := beNat_beBytes_of_lt (n := 3) hfits.wear
  have hsoft : beNat ((t.bytes.drop 12).take 1) = t.soft := beNat_beBytes_of_lt (n := 1) hfits.soft
  rw [hlogical, hseq, hwear, hsoft]
  rfl

theorem ne_erasedByte_of_isDataKind {k : Byte} (h : isDataKind k = true) : k ≠ erasedByte := by
  rintro rfl
  revert h
  decide

/-! ### The image of a page -/

theorem length_checkBytes (data : List Byte) : (checkBytes data).length = 8 := rfl

theorem length_pageImage {data : List Byte} (t : Tag) (h : data.length = 64) : (pageImage data t).length = 88 := by
  simp [pageImage, h, length_checkBytes, t.length_bytes]

theorem tagBytes_pageImage {data : List Byte} (t : Tag) (h : data.length = 64) : tagBytes (pageImage data t) = t.bytes := by
  rw [tagBytes, pageImage, List.drop_left' (by rw [List.length_append, h, length_checkBytes]),
    List.take_of_length_le t.length_bytes.le]

theorem codeword_pageImage {data : List Byte} (t : Tag) {i : Nat} (h : data.length = 64) (hi : i < 8) :
    codeword (pageImage data t) i = codeword data i := by
  rw [pageImage, List.append_assoc, codeword_append _ (by omega)]

theorem getD_pageImage {data : List Byte} (t : Tag) {i : Nat} (h : data.length = 64) (hi : i < 8) :
    (pageImage data t).getD (64 + i) 0#8 = checkByte (codeword data i) := by
  rw [pageImage, List.append_assoc, List.getD_append_right _ _ _ _ (by omega), h, Nat.add_sub_cancel_left,
    List.getD_append _ _ _ _ (by rw [length_checkBytes]; exact hi)]
  simp [checkBytes, hi]

/-! ### A page through the check unit -/

theorem getD_decodePage (bytes : List Byte) {i : Nat} (hi : i < 8) :
    (decodePage bytes).getD i (.clean, []) = decodeCodeword (codeword bytes i) (bytes.getD (64 + i) 0#8) := by
  simp [decodePage, hi]

/-- The final outcome of codeword i of a read. -/
theorem outcome_decodeRead (bytes : List Byte) (n q : Nat) {i : Nat} (hi : i < 8) :
    (decodeRead bytes n q).outcome i = finalOutcome (decodeRead bytes n q).tag
      ((tagPoison (readTag (tagBytes bytes))).getLsbD i)
      (decodeCodeword (codeword bytes i) (bytes.getD (64 + i) 0#8)).1 := by
  simp only [decodeRead, Decoded.outcome, ← getD_decodePage bytes hi]
  simp [hi]

/-- The data of a read, codeword for codeword. -/
theorem data_decodeRead (bytes : List Byte) (n q : Nat) :
    (decodeRead bytes n q).data = (List.range 8).flatMap fun i => handedBytes ((decodeRead bytes n q).outcome i)
      (codeword bytes i) (decodeCodeword (codeword bytes i) (bytes.getD (64 + i) 0#8)).2 := by
  refine List.flatMap_congr fun i hi => ?_
  have hi := List.mem_range.1 hi
  rw [outcome_decodeRead bytes n q hi, ← getD_decodePage bytes hi]
  rfl

/-- A codeword is handed on corrected under the outcome CORRECTED and as read under every other. -/
theorem handedBytes_eq (o : CwOutcome) (asRead decoded : List Byte) :
    handedBytes o asRead decoded = if o = .corrected then decoded else asRead := by
  cases o <;> rfl

theorem length_handed {bytes : List Byte} (o : CwOutcome) {i : Nat} (h : 8 * i + 8 ≤ bytes.length) :
    (handedBytes o (codeword bytes i) (decodeCodeword (codeword bytes i) (bytes.getD (64 + i) 0#8)).2).length = 8 := by
  rw [handedBytes_eq, apply_ite List.length, length_decodeCodeword, length_codeword h, ite_self]

/-! ### A programmed page, read back -/

section
variable {data : List Byte} {t : Tag} (hdata : data.length = 64)
include hdata

/-- Each codeword of a programmed page decodes CLEAN against its own check byte. -/
theorem decodeCodeword_pageImage {i : Nat} (hi : i < 8) :
    decodeCodeword (codeword (pageImage data t) i) ((pageImage data t).getD (64 + i) 0#8) =
      (.clean, codeword data i) := by
  rw [codeword_pageImage t hdata hi, getD_pageImage t hdata hi, decodeCodeword_checkByte]

theorem data_decodeRead_pageImage (n q : Nat) : (decodeRead (pageImage data t) n q).data = data := by
  rw [data_decodeRead]
  calc _ = (List.range 8).flatMap (codeword data) := by
        refine List.flatMap_congr fun i hi => ?_
        have hi := List.mem_range.1 hi
        rw [decodeCodeword_pageImage hdata hi, codeword_pageImage t hdata hi, handedBytes_eq, ite_self]
    _ = data := by rw [flatMap_codeword, List.take_of_length_le hdata.le]

theorem newlyLost_decodeRead_pageImage (n q : Nat) : (decodeRead (pageImage data t) n q).newlyLost = 0 := by
  refine BitVec.eq_of_getLsbD_eq fun i hi => ?_
  rw [decodeRead]
  dsimp only
  rw [getLsbD_cwMask _ hi, getD_decodePage _ hi, decodeCodeword_pageImage hdata hi]
  simp

variable (hkind : isDataKind t.kind = true) (hfits : t.Fits)
include hkind hfits

theorem readTag_pageImage : readTag (tagBytes (pageImage data t)) = .good t := by
  rw [tagBytes_pageImage t hdata, readTag_bytes (ne_erasedByte_of_isDataKind hkind) hfits]

theorem tag_decodeRead_pageImage : (decodeRead (pageImage data t) t.logical t.seq).tag = .good := by
  simp [decodeRead, readTag_pageImage hdata hkind hfits, tagOutcome, hkind]

theorem outcome_decodeRead_pageImage {i : Nat} (hi : i < 8) :
    (decodeRead (pageImage data t) t.logical t.seq).outcome i =
      if t.poison.getLsbD i then .uncorrectable else .clean := by
  rw [outcome_decodeRead _ _ _ hi, tag_decodeRead_pageImage hdata hkind hfits, readTag_pageImage hdata hkind hfits,
    decodeCodeword_pageImage hdata hi]
  rfl
end

/-- Settles O13: the tag is read as written, each codeword decodes CLEAN against its own check byte, and the data of any
read is the pieces handed on, of eight bytes each. -/
theorem programmedCopyReadsBack : Obligations.ProgrammedCopyReadsBack := by
  refine ⟨fun data t hdata hkind hlogical hseq hwear hsoft => ?_, fun bytes n q hbytes => ?_⟩
  · have hfits : t.Fits := ⟨hlogical, hseq, hwear, hsoft⟩
    exact ⟨length_pageImage t hdata, tag_decodeRead_pageImage hdata hkind hfits,
      data_decodeRead_pageImage hdata _ _, fun i hi => outcome_decodeRead_pageImage hdata hkind hfits hi,
      newlyLost_decodeRead_pageImage hdata _ _⟩
  · have hpieces : ∀ i < 8, _ := fun i hi => length_handed (bytes := bytes) ((decodeRead bytes n q).outcome i) (i := i)
      (by omega)
    rw [data_decodeRead]
    refine ⟨length_flatMap_range hpieces, fun i hi => ?_⟩
    rw [codeword_flatMap_range hpieces hi, handedBytes_eq]

end Sys2Proof.Machine
end

section
/-! PROOFS. The notices of slots that leave the pool: a departure gives at most the COMMAND_DONE of the long command it
ends, a drop gives its COMMIT_LOST before that, and so the drop of the whole queue gives its COMMIT_LOSTs in order. -/

namespace Sys2Proof.Machine

variable {s t u : State} {k : Nat} {sl : Slot}

/-! ### Notices and flags of a departure -/

theorem give_congr (hnotices : t.notices = s.notices) (hfaults : t.faults = s.faults) (n : Notice) :
    (t.give n).notices = (s.give n).notices ∧ (t.give n).faults = (s.give n).faults := by
  simp only [State.give, hnotices, hfaults, and_self]

theorem give_commitLost (s : State) (n : Notice) : (s.give n).faults.commitLost = s.faults.commitLost := by
  simp only [State.give]
  split <;> rfl

/-- Notices and flags are as they were, or one COMMAND_DONE was given as the pending long command left its slot. -/
def DoneAtMost (s t : State) : Prop :=
  (t.notices = s.notices ∧ t.faults = s.faults ∧ t.longCmd.isSome = s.longCmd.isSome) ∨
    (s.longCmd.isSome = true ∧ t.longCmd = none ∧
      ∃ n : Notice, n.kind = .commandDone ∧ t.notices = (s.give n).notices ∧ t.faults = (s.give n).faults)

theorem DoneAtMost.refl (s : State) : DoneAtMost s s := .inl ⟨rfl, rfl, rfl⟩

theorem DoneAtMost.trans (h : DoneAtMost s t) (g : DoneAtMost t u) : DoneAtMost s u := by
  obtain ⟨hnotices, hfaults, hlong⟩ | ⟨hsome, hnone, n, hn, hnotices, hfaults⟩ := h <;>
  obtain ⟨gnotices, gfaults, glong⟩ | ⟨gsome, gnone, m, hm, gnotices, gfaults⟩ := g
  · exact .inl ⟨gnotices.trans hnotices, gfaults.trans hfaults, glong.trans hlong⟩
  · obtain ⟨cnotices, cfaults⟩ := give_congr hnotices hfaults m
    exact .inr ⟨hlong ▸ gsome, gnone, m, hm, gnotices.trans cnotices, gfaults.trans cfaults⟩
  · exact .inr ⟨hsome, by simpa [hnone] using glong, n, hn, gnotices.trans hnotices, gfaults.trans hfaults⟩
  · simp [hnone] at gsome

theorem DoneAtMost.commitLost (h : DoneAtMost s t) : t.faults.commitLost = s.faults.commitLost := by
  obtain ⟨-, hfaults, -⟩ | ⟨-, -, n, -, -, hfaults⟩ := h
  · rw [hfaults]
  · rw [hfaults, give_commitLost]

/-- Without a pending long command nothing is given. -/
theorem DoneAtMost.of_no_command (h : DoneAtMost s t) (hlong : s.longCmd = none) :
    t.notices = s.notices ∧ t.faults = s.faults := by
  obtain ⟨hnotices, hfaults, -⟩ | ⟨hsome, -⟩ := h
  · exact ⟨hnotices, hfaults⟩
  · simp [hlong] at hsome

theorem doneAtMost_finishLong (s : State) (r : Nat) (p : Option Nat) : DoneAtMost s (s.finishLong r p) := by
  unfold State.finishLong
  split
  · exact .refl s
  · rename_i c hlong
    exact .inr ⟨by simp [hlong], rfl, s.doneNotice c r p, rfl, rfl, rfl⟩

theorem doneAtMost_reportHeld (s : State) (k : Nat) (lost : Bool) : DoneAtMost s (s.reportHeld k lost) := by
  unfold State.reportHeld
  repeat' split
  all_goals exact .inl ⟨rfl, rfl, rfl⟩

theorem doneAtMost_flushCheck (s : State) (lost : Bool) : DoneAtMost s (s.flushCheck lost) := by
  unfold State.flushCheck
  split
  · rename_i before hlong
    have hmarked : DoneAtMost s { s with longCmd := some (.flush (before || lost)) } :=
      .inl ⟨rfl, rfl, by simp [hlong]⟩
    dsimp only
    split
    · exact hmarked
    · exact hmarked.trans (doneAtMost_finishLong ..)
  · exact .refl s

theorem doneAtMost_quiesceCheck (s : State) : DoneAtMost s s.quiesceCheck := by
  unfold State.quiesceCheck
  split
  · exact doneAtMost_finishLong ..
  · exact .refl s

theorem doneAtMost_poolReport (s : State) : DoneAtMost s s.poolReport := by
  unfold State.poolReport
  split
  · exact DoneAtMost.trans (t := { s with mode := .drained }) (.inl ⟨rfl, rfl, rfl⟩) (doneAtMost_quiesceCheck _)
  · exact .refl s

theorem doneAtMost_leaving (s : State) (k : Nat) (sl : Slot) (how : Leave) : DoneAtMost s (s.leaving k sl how) := by
  have hset : DoneAtMost s (s.setSlot k none) := .inl ⟨rfl, rfl, rfl⟩
  unfold State.leaving
  refine hset.trans ?_
  dsimp only
  split <;> split
  · exact (doneAtMost_reportHeld ..).trans (doneAtMost_flushCheck ..)
  · exact doneAtMost_flushCheck ..
  · exact doneAtMost_reportHeld ..
  · exact .refl _

theorem doneAtMost_freeSlot (s : State) (k : Nat) (how : Leave) : DoneAtMost s (s.freeSlot k how) := by
  cases hk : s.slot k with
  | none => simp only [State.freeSlot, hk]; exact .refl s
  | some sl => rw [State.freeSlot_of_slot hk]; exact (doneAtMost_leaving ..).trans (doneAtMost_poolReport _)

/-! ### COMMIT_LOST notices (05 R96) -/

/-- The notice tells of a lost commit. -/
def Notice.isLost (n : Notice) : Bool := n.kind == .commitLost

/-- The notices in the queue and the COMMAND_DONE that a pending long command may still give. -/
def State.noticesDue (s : State) : Nat := s.notices.length + s.longCmd.isSome.toNat

theorem State.notices_length_le_due (s : State) : s.notices.length ≤ s.noticesDue := Nat.le_add_right ..

theorem give_filter_isLost (s : State) {n : Notice} (h : n.isLost = false) :
    (s.give n).notices.filter Notice.isLost = s.notices.filter Notice.isLost := by
  simp only [State.give]
  split
  · simp [h]
  · rfl

theorem give_notices_length (s : State) (n : Notice) : (s.give n).notices.length ≤ s.notices.length + 1 := by
  simp only [State.give]
  split <;> simp

theorem DoneAtMost.filter_isLost (h : DoneAtMost s t) :
    t.notices.filter Notice.isLost = s.notices.filter Notice.isLost := by
  obtain ⟨hnotices, -⟩ | ⟨-, -, n, hn, hgive, -⟩ := h
  · rw [hnotices]
  · rw [hgive, give_filter_isLost s (by simp [Notice.isLost, hn])]

theorem DoneAtMost.noticesDue_le (h : DoneAtMost s t) : t.noticesDue ≤ s.noticesDue := by
  unfold State.noticesDue
  obtain ⟨hnotices, -, hlong⟩ | ⟨hsome, hnone, n, -, hgive, -⟩ := h
  · rw [hnotices, hlong]
  · rw [hgive, hsome, hnone]
    exact give_notices_length s n

theorem State.notices_lossNoted (h : s.notices.length < 32) (k : Nat) (sl : Slot) (cause : Nat) (p : Option PPage) :
    (s.lossNoted k sl cause p).notices = s.notices ++ [lostNotice sl cause p] :=
  State.notices_give_of_room { s with commitQueue := s.commitQueue.erase k } _ h

theorem State.longCmd_lossNoted (s : State) (k : Nat) (sl : Slot) (cause : Nat) (p : Option PPage) :
    (s.lossNoted k sl cause p).longCmd = s.longCmd := rfl

/-- A drop notes its loss before whatever its departure ends. -/
theorem State.dropSlot_notices (hk : s.slot k = some sl) (hroom : s.notices.length < 32) (cause : Nat)
    (p : Option PPage) :
    (s.dropSlot k cause p).notices.filter Notice.isLost =
      s.notices.filter Notice.isLost ++ [lostNotice sl cause p] ∧
    (s.dropSlot k cause p).noticesDue ≤ s.noticesDue + 1 := by
  have hleft := doneAtMost_freeSlot (s.lossNoted k sl cause p) k .lost
  have hdue := hleft.noticesDue_le
  rw [State.dropSlot_of_slot hk, hleft.filter_isLost, State.notices_lossNoted hroom, List.filter_append]
  refine ⟨rfl, hdue.trans (le_of_eq ?_)⟩
  simp only [State.noticesDue, State.notices_lossNoted hroom, State.longCmd_lossNoted, List.length_append,
    List.length_singleton]
  omega

theorem State.dropSlot_commitLost (hk : s.slot k = some sl) (cause : Nat) (p : Option PPage) :
    (s.dropSlot k cause p).faults.commitLost = true := by
  rw [State.dropSlot_of_slot hk]
  exact (doneAtMost_freeSlot (s.lossNoted k sl cause p) k .lost).commitLost

/-! ### The whole queue (05 R92, R93) -/

/-- The drop of one slot leaves the slots of the others in a list without it. -/
theorem filterMap_slot_dropSlot {ks : List Nat} (h : k ∉ ks) (cause : Nat) (p : Option PPage) :
    ks.filterMap (s.dropSlot k cause p).slot = ks.filterMap s.slot :=
  List.filterMap_congr fun _ hj => State.slot_dropSlot_of_ne _ _ fun e => h (e ▸ hj)

/-- Slots dropped one after another give their COMMIT_LOST notices in that order, where the notice queue has room for
them and for the COMMAND_DONE of a pending long command. -/
theorem foldl_dropSlot_notices {ks : List Nat} (hks : ks.Nodup) (s : State) (hroom : s.noticesDue + ks.length ≤ 32) :
    (ks.foldl (fun v k => v.dropSlot k lostExhausted none) s).notices.filter Notice.isLost =
      s.notices.filter Notice.isLost ++ (ks.filterMap s.slot).map (fun sl => lostNotice sl lostExhausted none) := by
  induction ks generalizing s with
  | nil => simp
  | cons k ks ih =>
    obtain ⟨hk, hrest⟩ := List.nodup_cons.mp hks
    have hlen := s.notices_length_le_due
    simp only [List.length_cons] at hroom
    simp only [List.foldl_cons]
    cases hslot : s.slot k with
    | none =>
      have hfree := State.dropSlot_of_free hslot lostExhausted none
      have hdue : (s.dropSlot k lostExhausted none).noticesDue = s.noticesDue := by rw [hfree]; rfl
      have hnotices : (s.dropSlot k lostExhausted none).notices = s.notices := by rw [hfree]
      rw [ih hrest _ (by omega), filterMap_slot_dropSlot hk, hnotices, List.filterMap_cons_none hslot]
    | some sl =>
      obtain ⟨hnotices, hdue⟩ := State.dropSlot_notices hslot (by omega) lostExhausted none
      rw [ih hrest _ (by omega), filterMap_slot_dropSlot hk, hnotices, List.filterMap_cons_some hslot, List.map_cons,
        List.append_assoc, List.singleton_append]

/-- Slots dropped one after another leave the COMMIT_LOST flag set where it was set or one of them was not FREE. -/
theorem foldl_dropSlot_commitLost {ks : List Nat} (hks : ks.Nodup) (s : State)
    (h : s.faults.commitLost = true ∨ ks.filterMap s.slot ≠ []) :
    (ks.foldl (fun v k => v.dropSlot k lostExhausted none) s).faults.commitLost = true := by
  induction ks generalizing s with
  | nil => simpa using h
  | cons k ks ih =>
    obtain ⟨hk, hrest⟩ := List.nodup_cons.mp hks
    rw [List.foldl_cons]
    refine ih hrest _ ?_
    cases hslot : s.slot k with
    | none =>
      rw [List.filterMap_cons_none hslot] at h
      rw [filterMap_slot_dropSlot hk, State.dropSlot_of_free hslot]
      exact h
    | some sl => exact .inl (State.dropSlot_commitLost hslot ..)

/-- What judging the exhaustion condition changes is confined to the pool. -/
theorem poolOnly_exhaust (s : State) : PoolOnly s s.exhaust := by
  cases h : s.exhaustion with
  | false => rw [State.exhaust_of_not h]; exact .refl s
  | true => exact (State.exhaust_of h).1

/-- The COMMIT_LOST notice of a slot dropped under the exhaustion condition, written out (05 R96). -/
theorem lostNotice_exhausted (sl : Slot) : lostNotice sl lostExhausted none =
    { kind := .commitLost, lane := none, index := none, logical := some sl.page
      detail := 2 + 16 * (match sl.origin with | .host => 0 | .relocate => 1 | .migrate _ => 2) } := by
  rw [lostNotice]
  cases sl.origin <;> rfl

/-- Settles O23: the queue, its slots and the frame by `State.exhaust_of`, the notices and the flag by induction on the
queue. -/
theorem exhaustionDropsQueue : Obligations.ExhaustionDropsQueue := by
  refine fun s => ⟨poolOnly_exhaust s, fun hexh hnodup => ?_, State.exhaust_of_not⟩
  obtain ⟨-, hqueue, hgone, -⟩ := State.exhaust_of hexh
  refine ⟨hqueue, hgone, fun hroom => ?_, fun hused => ?_⟩
  · have hdue : s.noticesDue + s.commitQueue.length ≤ 32 := by
      have : s.longCmd.isSome.toNat ≤ 1 := Bool.toNat_le _
      unfold State.noticesDue
      omega
    have hlost := foldl_dropSlot_notices hnodup s hdue
    simp only [lostNotice_exhausted] at hlost
    rw [State.exhaust, if_pos hexh]
    exact hlost
  · rw [State.exhaust, if_pos hexh]
    exact foldl_dropSlot_commitLost hnodup s (.inr hused)

end Sys2Proof.Machine
end

section
/-! PROOFS. The end of a program, seen as ready: a commit, a record program and a mark each go on. -/

namespace Sys2Proof.Machine

variable {s : State} {l : LaneId} {k i q : Nat} {data : List Byte} {sl : Slot}

theorem exec_commitProgramDone (h : (s.lane l).commitOp = some (k, .programming, i, q, data)) :
    exec (.commitProgramDone l) s = .next (s.commitProgrammed l k i q data).settle := by
  change execCommitProgramDone l s = _
  simp only [execCommitProgramDone, h]

theorem exec_recordProgramDone {c : WorkCfg} {base : Nat}
    (h : s.laneA.recordOp = some (i, .programming, c, base, q, data)) :
    exec .recordProgramDone s = .next (s.recordProgrammed i c base q data).settle := by
  change execRecordProgramDone s = _
  simp only [execRecordProgramDone, h]

theorem exec_markProgramDone (h : (s.lane l).markOp = some i) :
    exec (.markProgramDone l) s = .next (s.markDone l i).settle := by
  change execMarkProgramDone l s = _
  simp only [execMarkProgramDone, h]

/-- The lane and the slot of a commit turn to VERIFYING together (05 R83). -/
theorem State.commitProgrammed_of_slot (h : s.slot k = some sl) (l : LaneId) (i q : Nat) (data : List Byte) :
    s.commitProgrammed l k i q data =
      (s.modLane l (fun x => { x with ready := true, op := some (.commit k .verifying i q data) })).setSlot k
        (some { sl with phase := .verifying { lane := l, index := i } q }) := by
  unfold State.commitProgrammed
  exact State.modSlot_of_slot (s := s.modLane l _) h _

/-- The mark's page leaves the list it stands at the head of, and the lane is released (06 R109). -/
theorem State.markDone_of_head (h : (s.lane l).markList.head? = some i) : s.markDone l i =
    (s.idled l).modLane l (fun x => { x with ready := true, markList := x.markList.tail }) := by
  cases l <;> simp_all [State.markDone, State.idled, State.endOp, State.modLane, State.setLane]

/-- Settles O46, program by program. -/
theorem programsEnd : Obligations.ProgramsEnd := by
  refine fun s hq => ⟨fun l r hop hphase sl hsl => ?_, fun r hop hphase => ?_, fun l i hop hhead => ?_⟩
  · obtain ⟨k, phase, i, q, data⟩ := r
    obtain rfl : phase = .programming := hphase
    rw [exec_commitProgramDone hop, State.commitProgrammed_of_slot hsl]
    exact settlesTo_next hq.2
  · obtain ⟨i, phase, c, base, q, data⟩ := r
    obtain rfl : phase = .programming := hphase
    rw [exec_recordProgramDone hop]
    exact settlesTo_next (s := s.recordProgrammed i c base q data) hq.2
  · rw [exec_markProgramDone hop, State.markDone_of_head hhead]
    exact settlesTo_next hq.2

end Sys2Proof.Machine
end

section
/-! PROOFS. What the departure of one slot enables: the held answer, the end of a drain, the end of a FLUSH and of a
QUIESCE. -/

namespace Sys2Proof.Machine

variable {s t u v : State} {k j : Nat} {sl x : Slot} {how : Leave}

/-! ### The last notice given -/

theorem give_getLast (n : Notice) (h : (s.give n).notices.length < 32) : (s.give n).notices.getLast? = some n := by
  by_cases hroom : s.notices.length < 32
  · rw [State.notices_give_of_room _ _ hroom, List.getLast?_concat]
  · have hfull : (s.give n).notices = s.notices := if_neg hroom
    rw [hfull] at h
    exact absurd h hroom

/-! ### The check of a FLUSH (02 R36) -/

theorem State.anyFlushMark_iff : s.anyFlushMark = true ↔ ∃ k sl, s.slot k = some sl ∧ sl.flushMark = true := by
  simp only [State.anyFlushMark, List.any_eq_true, Option.any_eq_true, State.slot_eq_some_iff]
  constructor
  · rintro ⟨o, ho, sl, rfl, hmark⟩
    obtain ⟨k, hk⟩ := List.mem_iff_getElem?.mp ho
    exact ⟨k, sl, hk, hmark⟩
  · rintro ⟨k, sl, hk, hmark⟩
    exact ⟨_, List.mem_of_getElem? hk, sl, rfl, hmark⟩

theorem State.flushCheck_of_last {before : Bool} (h : s.longCmd = some (.flush before)) (hlast : s.anyFlushMark = false)
    (lost : Bool) : s.flushCheck lost =
      ({ s with longCmd := none }).give (s.doneBy (.flush before) (if before || lost then 3 else 0) none) := by
  simp only [State.flushCheck, h, hlast, Bool.false_eq_true, if_false]
  rfl

theorem State.flushCheck_of_more {before : Bool} (h : s.longCmd = some (.flush before)) (hmore : s.anyFlushMark = true)
    (lost : Bool) : s.flushCheck lost = { s with longCmd := some (.flush (before || lost)) } := by
  simp only [State.flushCheck, h, hmore, if_true]

theorem State.flushCheck_of_quiesce (h : s.longCmd = some .quiesce) (lost : Bool) : s.flushCheck lost = s := by
  simp only [State.flushCheck, h]

/-! ### The report of an empty pool (02 R37, 10 R156, R158) -/

theorem State.poolReport_of_used (h : s.allFree = false) : s.poolReport = s := if_neg (by simp [h])

/-- A long command that is no QUIESCE stays as it is when the pool reports itself empty. -/
theorem State.poolReport_of_not_quiesce (h : s.longCmd ≠ some .quiesce) :
    s.poolReport.longCmd = s.longCmd ∧ s.poolReport.notices = s.notices := by
  have hstays : ({ s with mode := .drained } : State).quiesceCheck = { s with mode := .drained } :=
    if_neg fun g => h g.1
  unfold State.poolReport
  split
  · rw [hstays]; exact ⟨rfl, rfl⟩
  · exact ⟨rfl, rfl⟩

theorem State.poolReport_of_quiesce (h : s.longCmd = some .quiesce) (hfree : s.allFree = true)
    (hmode : s.mode = .draining) (hmaint : s.causes.maintenance = true) :
    s.poolReport = ({ s with mode := .drained, longCmd := none }).give (s.doneBy .quiesce 0 none) := by
  have hany : s.causes.any = true := by simp [Causes.any, hmaint]
  rw [State.poolReport, if_pos ⟨hfree, hmode, hany⟩, State.quiesceCheck, if_pos ⟨h, rfl, hmaint⟩]
  simp only [State.finishLong, h]
  rfl

/-! ### The parts of a departure -/

/-- The pool with a slot FREE, and its report to the host port where it owed the held answer (02 R45, 03 R56). -/
def State.vacated (s : State) (k : Nat) (sl : Slot) (how : Leave) : State :=
  if sl.owed then (s.setSlot k none).reportHeld k (how == .lost) else s.setSlot k none

@[simp] theorem State.vacated_slots (s : State) (k : Nat) (sl : Slot) (how : Leave) :
    (s.vacated k sl how).slots = s.slots.set k none := by
  unfold State.vacated; split <;> simp [State.setSlot]

@[simp] theorem State.vacated_longCmd (s : State) (k : Nat) (sl : Slot) (how : Leave) :
    (s.vacated k sl how).longCmd = s.longCmd := by
  unfold State.vacated; split <;> simp

theorem State.leaving_of_marked (h : sl.flushMark = true) :
    s.leaving k sl how = (s.vacated k sl how).flushCheck (how == .lost) := if_pos h

theorem State.leaving_of_quiesce (h : s.longCmd = some .quiesce) : s.leaving k sl how = s.vacated k sl how := by
  have hlong : (s.vacated k sl how).longCmd = some .quiesce := by rw [State.vacated_longCmd, h]
  change (if sl.flushMark then (s.vacated k sl how).flushCheck _ else s.vacated k sl how) = _
  rw [State.flushCheck_of_quiesce hlong, ite_self]

theorem State.slot_of_set (h : t.slots = s.slots.set k none) (j : Nat) :
    t.slot j = if j = k then none else s.slot j := by
  split
  · rename_i hj
    subst hj
    by_cases hlt : j < s.slots.length <;> simp [State.slot, h, hlt]
  · rename_i hj
    exact State.slot_set_of_ne h hj

/-- With one slot FREE the pool is empty exactly where no other slot is used. -/
theorem State.allFree_of_set (h : t.slots = s.slots.set k none) :
    t.allFree = true ↔ ∀ j, j ≠ k → s.slot j = none := by
  rw [State.allFree_iff]
  refine forall_congr' fun j => ?_
  rw [State.slot_of_set h]
  split <;> simp_all

theorem State.anyFlushMark_of_set (h : t.slots = s.slots.set k none) :
    t.anyFlushMark = true ↔ ∃ j, j ≠ k ∧ (s.slot j).any (fun x => x.flushMark) = true := by
  rw [State.anyFlushMark_iff]
  refine exists_congr fun j => ?_
  rw [State.slot_of_set h, Option.any_eq_true]
  split <;> simp_all

/-! ### What a departure enables -/

/-- Slot k is to leave the pool of u, where all that its departure is judged by stands as in s. -/
structure AboutToLeave (u s : State) (k : Nat) (sl : Slot) : Prop where
  slot : ∃ x, u.slot k = some x ∧ x.owed = sl.owed ∧ x.flushMark = sl.flushMark
  others : ∀ j, j ≠ k → u.slot j = s.slot j
  port : u.port = s.port
  answers : u.answers = s.answers
  mode : u.mode = s.mode
  causes : u.causes = s.causes
  longCmd : u.longCmd = s.longCmd

theorem State.reportHeld_second {failed : Bool} (hj : j ≠ k) (h : s.port = .holding [j, k] failed) (lost : Bool) :
    s.reportHeld k lost = { s with port := .holding [j] (failed || lost) } := by
  simp [State.reportHeld, h, hj]

/-- The held answer is given where the slot was the last to owe it, and otherwise waits for the other (03 R56). -/
theorem AboutToLeave.held (h : AboutToLeave u s k sl) (how : Leave) (howed : sl.owed = true) :
    (∀ failed, s.port = .holding [k] failed → (u.freeSlot k how).port = .idle ∧ (u.freeSlot k how).answers =
      s.answers ++ [if failed || (how == .lost) then .fault .commitFailed else .done]) ∧
    (∀ j failed, j ≠ k → s.port = .holding [k, j] failed ∨ s.port = .holding [j, k] failed →
      (u.freeSlot k how).port = .holding [j] (failed || (how == .lost)) ∧
      (u.freeSlot k how).answers = s.answers) := by
  obtain ⟨x, hx, hxowed, -⟩ := h.slot
  obtain ⟨hport, hanswers⟩ := State.freeSlot_port_of_owed hx (hxowed.trans howed) how
  rw [hport, hanswers]
  refine ⟨fun failed hold => ?_, fun j failed hj hold => ?_⟩
  · rw [State.reportHeld_last (s := u.setSlot k none) (h.port.trans hold), ← h.answers]
    exact ⟨rfl, rfl⟩
  · rcases hold with hold | hold
    · rw [State.reportHeld_first (s := u.setSlot k none) (h.port.trans hold)]
      exact ⟨rfl, h.answers⟩
    · rw [State.reportHeld_second (s := u.setSlot k none) hj (h.port.trans hold)]
      exact ⟨rfl, h.answers⟩

theorem AboutToLeave.allFree (h : AboutToLeave u s k sl) (ht : t.slots = u.slots.set k none) :
    t.allFree = true ↔ ∀ j, j ≠ k → s.slot j = none := by
  rw [State.allFree_of_set ht]
  exact forall₂_congr fun j hj => by rw [h.others j hj]

theorem AboutToLeave.anyFlushMark (h : AboutToLeave u s k sl) (ht : t.slots = u.slots.set k none) :
    t.anyFlushMark = true ↔ ∃ j, j ≠ k ∧ (s.slot j).any (fun x => x.flushMark) = true := by
  rw [State.anyFlushMark_of_set ht]
  exact exists_congr fun j => and_congr_right fun hj => by rw [h.others j hj]

/-- The mode after the departure: DRAINED where it emptied the pool of a drain (10 R156). -/
theorem AboutToLeave.freeSlot_mode (h : AboutToLeave u s k sl) (how : Leave) :
    ((∀ j, j ≠ k → s.slot j = none) → s.mode = .draining → s.causes.any = true →
      (u.freeSlot k how).mode = .drained) ∧
    ((∃ j, j ≠ k ∧ (s.slot j).isSome = true) ∨ s.mode ≠ .draining → (u.freeSlot k how).mode = s.mode) := by
  obtain ⟨x, hx, -⟩ := h.slot
  have hfree := h.allFree (t := u.freeSlot k how)
    (by rw [State.freeSlot_of_slot hx, State.poolReport_slots, State.leaving_slots])
  rw [State.freeSlot_mode hx, h.mode, h.causes]
  refine ⟨fun hall hmode hany => if_pos ⟨hfree.mpr hall, hmode, hany⟩, fun hnot => if_neg ?_⟩
  rintro ⟨hall, hmode, -⟩
  rcases hnot with ⟨j, hj, hused⟩ | hnot
  · simp [hfree.mp hall j hj] at hused
  · exact hnot hmode

/-- A FLUSH ends with the last marked slot, by its COMMAND_DONE, and goes on while another is marked (02 R36). -/
theorem AboutToLeave.flush (h : AboutToLeave u s k sl) (how : Leave) (hmark : sl.flushMark = true) {before : Bool}
    (hlong : s.longCmd = some (.flush before)) :
    ((∀ j, j ≠ k → (s.slot j).all (fun x => !x.flushMark) = true) →
      (u.freeSlot k how).longCmd = none ∧
      ((u.freeSlot k how).notices.length < 32 → (u.freeSlot k how).notices.getLast? =
        some (s.doneBy (.flush before) (if before || (how == .lost) then 3 else 0) none))) ∧
    ((∃ j, j ≠ k ∧ (s.slot j).any (fun x => x.flushMark) = true) →
      (u.freeSlot k how).longCmd = some (.flush (before || (how == .lost)))) := by
  obtain ⟨x, hx, -, hxmark⟩ := h.slot
  have hlong' : (u.vacated k x how).longCmd = some (.flush before) := by rw [State.vacated_longCmd, h.longCmd, hlong]
  have hany := h.anyFlushMark (t := u.vacated k x how) (State.vacated_slots ..)
  rw [State.freeSlot_of_slot hx, State.leaving_of_marked (hxmark.trans hmark)]
  refine ⟨fun hlast => ?_, fun hmore => ?_⟩
  · have hnone : (u.vacated k x how).anyFlushMark = false := by
      refine Bool.eq_false_iff.mpr fun hsome => ?_
      obtain ⟨j, hj, hjmark⟩ := hany.mp hsome
      have hjclear := hlast j hj
      cases hslot : s.slot j <;> simp_all
    rw [State.flushCheck_of_last hlong' hnone]
    generalize hw : State.give _ _ = w
    have hwlong : w.longCmd = none := by rw [← hw]; rfl
    obtain ⟨hpool, hnotices⟩ := State.poolReport_of_not_quiesce (s := w) (by simp [hwlong])
    rw [hpool, hnotices]
    exact ⟨hwlong, by rw [← hw]; exact give_getLast _⟩
  · rw [State.flushCheck_of_more hlong' (hany.mpr hmore)]
    exact (State.poolReport_of_not_quiesce (s := { u.vacated k x how with
      longCmd := some (.flush (before || (how == .lost))) }) (by simp)).1

/-- A QUIESCE ends with the departure that empties the pool of its drain, by its COMMAND_DONE (10 R158). -/
theorem AboutToLeave.quiesce (h : AboutToLeave u s k sl) (how : Leave) (hlong : s.longCmd = some .quiesce) :
    ((∀ j, j ≠ k → s.slot j = none) → s.mode = .draining → s.causes.maintenance = true →
      (u.freeSlot k how).longCmd = none ∧
      ((u.freeSlot k how).notices.length < 32 →
        (u.freeSlot k how).notices.getLast? = some (s.doneBy .quiesce 0 none))) ∧
    ((∃ j, j ≠ k ∧ (s.slot j).isSome = true) → (u.freeSlot k how).longCmd = some .quiesce) := by
  obtain ⟨x, hx, -⟩ := h.slot
  have hulong : u.longCmd = some .quiesce := h.longCmd.trans hlong
  have hfree := h.allFree (t := u.vacated k x how) (State.vacated_slots ..)
  have hsame := State.leaving_of_quiesce (k := k) (sl := x) (how := how) hulong
  rw [State.freeSlot_of_slot hx, hsame]
  refine ⟨fun hall hmode hmaint => ?_, fun ⟨j, hj, hused⟩ => ?_⟩
  · rw [State.poolReport_of_quiesce (by rw [State.vacated_longCmd, hulong]) (hfree.mpr hall)
      (by rw [← hsame, State.leaving_mode, h.mode, hmode]) (by rw [← hsame, State.leaving_causes, h.causes, hmaint])]
    exact ⟨rfl, give_getLast _⟩
  · rw [State.poolReport_of_used, State.vacated_longCmd, hulong]
    refine Bool.eq_false_iff.mpr fun hall => ?_
    simp [hfree.mp hall j hj] at hused

/-- What the departure of a slot enables, as the step ends (02 R45). -/
theorem AboutToLeave.departed (h : AboutToLeave u s k sl) (how : Leave) (ht : Settled (u.freeSlot k how) t) :
    t.Departed s k sl (how == .lost) := by
  obtain ⟨a, b, n, rfl, -⟩ := ht
  obtain ⟨hdrained, hstays⟩ := h.freeSlot_mode how
  refine ⟨h.held how, fun hall hmode hany => ?_, hstays, fun hmark before hlong => h.flush how hmark hlong,
    fun hlong => h.quiesce how hlong⟩
  have hmode' := hdrained hall hmode hany
  exact ⟨hmode', by simp [hmode']⟩

end Sys2Proof.Machine
end

section
/-! PROOFS. The end of a commit: what its read-back decides, the map and the copy released where it matches, the target
retired and the slot retried or dropped where it differs. -/

namespace Sys2Proof.Machine

variable {s t u : State} {k i q : Nat} {l : LaneId} {p old : PPage} {sl : Slot} {data bytes : List Byte}

/-! ### What the frames of a step leave -/

theorem PoolOnly.link (h : PoolOnly s t) : t.link = s.link := by
  obtain ⟨_, _, _, _, _, _, _, _, _, _, rfl⟩ := h; rfl

theorem PoolOnly.space (h : PoolOnly s t) : t.space = s.space := by
  obtain ⟨_, _, _, _, _, _, _, _, _, _, rfl⟩ := h; rfl

theorem Settled.slot (h : Settled s t) (k : Nat) : t.slot k = s.slot k := by
  obtain ⟨_, _, _, rfl, -⟩ := h; rfl

theorem Settled.stats (h : Settled s t) : t.stats = s.stats := by
  obtain ⟨_, _, _, rfl, -⟩ := h; rfl

theorem Settled.slots (h : Settled s t) : t.slots = s.slots := by
  obtain ⟨_, _, _, rfl, -⟩ := h; rfl

theorem Settled.queue (h : Settled s t) : t.commitQueue = s.commitQueue := by
  obtain ⟨_, _, _, rfl, -⟩ := h; rfl

theorem Settled.faults (h : Settled s t) : t.faults = s.faults := by
  obtain ⟨_, _, _, rfl, -⟩ := h; rfl

theorem Settled.notices (h : Settled s t) : t.notices = s.notices := by
  obtain ⟨_, _, _, rfl, -⟩ := h; rfl

theorem PoolOnly.page (h : PoolOnly s t) (p : PPage) : t.page p = s.page p := by
  simp only [State.page, h.lane]

theorem Settled.lane (h : Settled s t) (l : LaneId) :
    ∃ claims passOver, t.lane l = { s.lane l with claims := claims, passOver := passOver } := by
  obtain ⟨_, _, _, rfl, ⟨_, rfl, -⟩, ⟨_, rfl, -⟩, -⟩ := h
  cases l <;> exact ⟨_, _, rfl⟩

theorem Settled.page (h : Settled s t) (p : PPage) : t.page p = s.page p := by
  obtain ⟨_, _, hlane⟩ := h.lane p.lane
  simp only [State.page, hlane]

/-- The space state that the inputs give rests on the counter, the reserve floor and the free lists of the ONLINE
lanes. -/
theorem State.spaceNow_congr (hseq : t.seq = s.seq) (hcfg : t.cfg = s.cfg)
    (hlane : ∀ l, (t.lane l).online = (s.lane l).online ∧ (t.lane l).freeList = (s.lane l).freeList) :
    t.spaceNow = s.spaceNow := by
  have hcount : ∀ l, (t.lane l).freeCounted = (s.lane l).freeCounted := fun l => by
    simp only [Lane.freeCounted, hlane l]
  have htotal : t.freeTotal = s.freeTotal := congrArg₂ (· + ·) (hcount .a) (hcount .b)
  rw [State.spaceNow_eq, State.spaceNow_eq, hseq, hcfg, htotal]

theorem PoolOnly.spaceNow (h : PoolOnly s t) : t.spaceNow = s.spaceNow := by
  have hlane := h.lane
  obtain ⟨_, _, _, _, _, _, _, _, _, _, rfl⟩ := h
  exact State.spaceNow_congr rfl rfl fun l => by rw [hlane]; exact ⟨rfl, rfl⟩

theorem Settled.spaceNow (h : Settled s t) : t.spaceNow = s.spaceNow := by
  have hlane := h.lane
  obtain ⟨_, _, _, rfl, -⟩ := h
  refine State.spaceNow_congr rfl rfl fun l => ?_
  obtain ⟨_, _, e⟩ := hlane l
  rw [e]
  exact ⟨rfl, rfl⟩

theorem State.endOp_lane (s : State) (l : LaneId) :
    (s.endOp l).lane l = { s.lane l with op := none, awaitReady := false, discard := false } := State.lane_modLane ..

theorem State.page_endOp (s : State) (l : LaneId) (p : PPage) : (s.endOp l).page p = s.page p :=
  State.page_modLane _ rfl p

theorem State.spaceNow_endOp (s : State) (l : LaneId) : (s.endOp l).spaceNow = s.spaceNow := by
  refine State.spaceNow_congr rfl rfl fun m => ?_
  by_cases hm : m = l
  · subst hm
    rw [State.endOp_lane]
    exact ⟨rfl, rfl⟩
  · rw [State.endOp, State.lane_modLane_of_ne _ _ hm]
    exact ⟨rfl, rfl⟩

theorem State.slot_exhaust_of_free (h : s.slot k = none) : s.exhaust.slot k = none := by
  cases hexh : s.exhaustion with
  | false => rw [State.exhaust_of_not hexh, h]
  | true =>
    obtain ⟨-, -, hgone, hstay⟩ := State.exhaust_of hexh
    by_cases hk : k ∈ s.commitQueue
    · exact hgone k hk
    · rw [hstay k hk, h]

/-! ### What the adoption of a copy can change -/

/-- What the map and the lanes make of a verified copy is confined to the remap table, the lanes, the space state and
the notices with their flags. -/
def MapOnly (s t : State) : Prop :=
  ∃ remap laneA laneB space notices dropped faults,
    t = { s with remap := remap, laneA := laneA, laneB := laneB, space := space, notices := notices,
                 dropped := dropped, faults := faults }

theorem MapOnly.refl (s : State) : MapOnly s s := ⟨_, _, _, _, _, _, _, rfl⟩

theorem MapOnly.trans (h : MapOnly s t) (g : MapOnly t u) : MapOnly s u := by
  obtain ⟨_, _, _, _, _, _, _, rfl⟩ := h
  obtain ⟨_, _, _, _, _, _, _, rfl⟩ := g
  exact ⟨_, _, _, _, _, _, _, rfl⟩

theorem mapOnly_modLane (s : State) (l : LaneId) (f : Lane → Lane) : MapOnly s (s.modLane l f) :=
  ⟨_, _, _, _, _, _, _, rfl⟩

theorem mapOnly_give (s : State) (n : Notice) : MapOnly s (s.give n) := ⟨_, _, _, _, _, _, _, rfl⟩

theorem mapOnly_endOp (s : State) (l : LaneId) : MapOnly s (s.endOp l) := mapOnly_modLane ..

theorem mapOnly_recompute (s : State) : MapOnly s s.recompute := by
  unfold State.recompute
  split
  · exact .refl s
  · exact ⟨_, _, _, _, _, _, _, rfl⟩

theorem mapOnly_retire (s : State) (p : PPage) : MapOnly s (s.retire p) :=
  (mapOnly_modLane ..).trans (mapOnly_modLane ..)

theorem mapOnly_release (s : State) (p : PPage) (n : Nat) : MapOnly s (s.release p n) := by
  obtain ⟨notice, e⟩ | e := s.release_cases p n
  · rw [e]; exact (mapOnly_retire s p).trans (mapOnly_give ..)
  · rw [e]; exact (mapOnly_modLane ..).trans (mapOnly_modLane ..)

theorem mapOnly_adopted (s : State) (page : Nat) (p : PPage) (q : Nat) : MapOnly s (s.adopted page p q) :=
  ⟨_, _, _, _, _, _, _, rfl⟩

theorem mapOnly_adopt (s : State) (page : Nat) (p : PPage) (q : Nat) : MapOnly s (s.adopt page p q).1 := by
  match h : s.entry page with
  | .mapped old oq =>
    rcases Nat.lt_or_ge oq q with hq | hq
    · rw [s.adopt_of_greater p h hq]
      exact (mapOnly_adopted ..).trans (mapOnly_release ..)
    · rw [s.adopt_of_not_greater p h hq]
      exact mapOnly_release ..
  | .unmapped => rw [s.adopt_of_not_mapped p q (.inl h)]; exact mapOnly_adopted ..
  | .absent => rw [s.adopt_of_not_mapped p q (.inr h)]; exact mapOnly_adopted ..

theorem State.noteMove_cases (s : State) (sl : Slot) (p : PPage) (o : Option PPage) :
    s.noteMove sl p o = s ∨ ∃ n, s.noteMove sl p o = s.give n := by
  unfold State.noteMove
  split
  · exact .inr ⟨_, rfl⟩
  · exact .inr ⟨_, rfl⟩
  · exact .inl rfl

theorem mapOnly_noteMove (s : State) (sl : Slot) (p : PPage) (o : Option PPage) : MapOnly s (s.noteMove sl p o) := by
  obtain e | ⟨n, e⟩ := s.noteMove_cases sl p o
  · rw [e]; exact .refl s
  · rw [e]; exact mapOnly_give ..

theorem MapOnly.link (h : MapOnly s t) : t.link = s.link := by obtain ⟨_, _, _, _, _, _, _, rfl⟩ := h; rfl

theorem MapOnly.seq (h : MapOnly s t) : t.seq = s.seq := by obtain ⟨_, _, _, _, _, _, _, rfl⟩ := h; rfl

theorem MapOnly.cfg (h : MapOnly s t) : t.cfg = s.cfg := by obtain ⟨_, _, _, _, _, _, _, rfl⟩ := h; rfl

/-! ### Lanes and pages after a recomputation and a notice -/

@[simp] theorem State.lane_recompute (s : State) (l : LaneId) : s.recompute.lane l = s.lane l := by
  unfold State.recompute
  split
  · rfl
  · cases l <;> rfl

@[simp] theorem State.recompute_remap (s : State) : s.recompute.remap = s.remap := by
  unfold State.recompute; split <;> rfl

theorem State.spaceNow_give (s : State) (n : Notice) : (s.give n).spaceNow = s.spaceNow :=
  State.spaceNow_congr rfl rfl fun l => by rw [State.lane_give]; exact ⟨rfl, rfl⟩

theorem State.spaceNow_recompute (s : State) : s.recompute.spaceNow = s.spaceNow := by
  have hkeeps := keeps_recompute s
  refine State.spaceNow_congr ?_ hkeeps.cfg fun l => by rw [State.lane_recompute]; exact ⟨rfl, rfl⟩
  unfold State.recompute; split <;> rfl

/-! ### A match: the copy is taken (05 R86) -/

/-- The commit's end but for the slot's departure: the map, the copy released, the space state, the notice, the lane. -/
def State.copyTaken (s : State) (l : LaneId) (i q : Nat) (sl : Slot) : State :=
  (((s.adopt sl.page { lane := l, index := i } q).1.recompute).noteMove sl { lane := l, index := i }
    (s.adopt sl.page { lane := l, index := i } q).2).endOp l

theorem State.completeCommit_of_slot (h : s.slot k = some sl) (l : LaneId) (i q : Nat) :
    s.completeCommit l k i q = ((s.copyTaken l i q sl).freeSlot k .completed).exhaust := by
  simp only [State.completeCommit, h, State.copyTaken]

theorem mapOnly_copyTaken (s : State) (l : LaneId) (i q : Nat) (sl : Slot) : MapOnly s (s.copyTaken l i q sl) :=
  ((mapOnly_adopt ..).trans (mapOnly_recompute _)).trans ((mapOnly_noteMove ..).trans (mapOnly_endOp ..))

theorem State.op_copyTaken (s : State) (l : LaneId) (i q : Nat) (sl : Slot) :
    ((s.copyTaken l i q sl).lane l).op = none := by
  rw [State.copyTaken, State.endOp_lane]

/-- After the adoption the space state is the one the inputs give, and stays so. -/
theorem State.space_copyTaken (s : State) (l : LaneId) (i q : Nat) (sl : Slot) :
    (s.copyTaken l i q sl).space = (s.copyTaken l i q sl).spaceNow := by
  rw [State.copyTaken, State.spaceNow_endOp, State.endOp_space]
  obtain e | ⟨n, e⟩ := State.noteMove_cases _ sl { lane := l, index := i } _
  · rw [e, State.recompute_space, State.spaceNow_recompute]
  · rw [e, State.spaceNow_give, State.give_space, State.recompute_space, State.spaceNow_recompute]

theorem State.page_copyTaken (s : State) (l : LaneId) (i q : Nat) (sl : Slot) (r : PPage) :
    (s.copyTaken l i q sl).page r = (s.adopt sl.page { lane := l, index := i } q).1.page r := by
  rw [State.copyTaken, State.page_endOp]
  obtain e | ⟨n, e⟩ := State.noteMove_cases _ sl { lane := l, index := i } _
  · rw [e]; simp only [State.page, State.lane_recompute]
  · rw [e]; simp only [State.page, State.lane_give, State.lane_recompute]

theorem State.remap_copyTaken (s : State) (l : LaneId) (i q : Nat) (sl : Slot) :
    (s.copyTaken l i q sl).remap = (s.adopt sl.page { lane := l, index := i } q).1.remap := by
  rw [State.copyTaken, State.endOp_remap]
  obtain e | ⟨n, e⟩ := State.noteMove_cases _ sl { lane := l, index := i } _
  · rw [e, State.recompute_remap]
  · rw [e, State.give_remap, State.recompute_remap]

theorem MapOnly.aboutToLeave (h : MapOnly s u) (hk : s.slot k = some sl) : AboutToLeave u s k sl := by
  obtain ⟨_, _, _, _, _, _, _, rfl⟩ := h
  exact ⟨⟨sl, hk, rfl, rfl⟩, fun _ _ => rfl, rfl, rfl, rfl, rfl, rfl⟩

theorem State.lane_setEntry (s : State) (n : Nat) (e : RemapEntry) (m : LaneId) :
    (s.setEntry n e).lane m = s.lane m := by cases m <;> rfl

theorem State.length_pages_setPage (s : State) (p : PPage) (r : PageRec) (m : LaneId) :
    ((s.setPage p r).lane m).pages.length = (s.lane m).pages.length := by
  by_cases hm : m = p.lane
  · subst hm
    rw [State.lane_setPage, List.length_set]
  · rw [State.setPage, State.lane_modLane_of_ne _ _ hm]

theorem State.page_release_self (n : Nat) (h : p.index < (s.lane p.lane).pages.length) :
    (s.release p n).page p =
      { s.page p with
        state := if s.cfg.wearLimit ≤ (s.page p).wear ∨ s.cfg.softLimit ≤ (s.page p).soft then .retired else .free } := by
  split
  · rename_i hlimit
    rw [s.release_of_limit n hlimit, State.page_give, State.page_retire, State.page_setPage_self s _ h]
  · rename_i hbelow
    rw [s.release_of_below n hbelow, State.page_freed, State.page_setPage_self s _ h]

theorem State.page_adopted_self (page q : Nat) (h : p.index < (s.lane p.lane).pages.length) :
    (s.adopted page p q).page p = { s.page p with state := .mapped page } := by
  refine State.page_setPage_self (s.setEntry page (.mapped p q)) _ ?_
  rwa [State.lane_setEntry]

theorem State.page_adopted_of_ne (page q : Nat) (h : old ≠ p) : (s.adopted page p q).page old = s.page old :=
  (State.page_setPage_of_ne (s.setEntry page (.mapped p q)) _ h).trans (by simp only [State.page, State.lane_setEntry])

/-! ### The notice of a move (05 R86) -/

theorem State.noteMove_of_moved (h : sl.origin ≠ .host) (s : State) (p old : PPage) :
    s.noteMove sl p (some old) =
      s.give (moveNotice (if sl.origin = .relocate then .relocated else .migrated) p old sl.page) := by
  unfold State.noteMove
  cases horigin : sl.origin with
  | host => exact absurd horigin h
  | relocate => rfl
  | migrate m => rfl

theorem moveNotice_eq (kind : NoticeKind) (p old : PPage) (page : Nat) : moveNotice kind p old page =
    { kind := kind, lane := some p.lane, index := some p.index, logical := some page
      detail := old.index + (match old.lane with | .a => 0 | .b => 32768) } := by
  rw [moveNotice]
  cases old.lane <;> rfl

theorem release_notices_length (s : State) (p : PPage) (n : Nat) :
    (s.release p n).notices.length ≤ s.notices.length + 1 := by
  obtain ⟨notice, e⟩ | e := s.release_cases p n
  · rw [e]; exact give_notices_length (s.retire p) notice
  · rw [e]; simp

theorem recompute_notices_length (s : State) : s.recompute.notices.length ≤ s.notices.length + 1 := by
  unfold State.recompute
  split
  · omega
  · exact give_notices_length { s with space := s.spaceNow } _

theorem mem_notices_copyTaken {oq : Nat} (horigin : sl.origin ≠ .host) (hentry : s.entry sl.page = .mapped old oq)
    (hq : oq < q) (hroom : s.notices.length + 3 ≤ 32) :
    moveNotice (if sl.origin = .relocate then .relocated else .migrated) { lane := l, index := i } old sl.page ∈
      (s.copyTaken l i q sl).notices := by
  rw [State.copyTaken, s.adopt_of_greater _ hentry hq, State.noteMove_of_moved horigin, State.endOp_notices]
  have hrelease := release_notices_length (s.adopted sl.page { lane := l, index := i } q) old sl.page
  have hrecompute := recompute_notices_length ((s.adopted sl.page { lane := l, index := i } q).release old sl.page)
  have hadopted : (s.adopted sl.page { lane := l, index := i } q).notices = s.notices := rfl
  rw [hadopted] at hrelease
  dsimp only
  rw [State.notices_give_of_room _ _ (by omega)]
  exact List.mem_append_right _ List.mem_cons_self

/-! ### The end of a commit -/

theorem exec_commitVerifyDone (h : (s.lane l).commitOp = some (k, .verifying, i, q, data)) (hbytes : bytes.length = 88) :
    exec (.commitVerifyDone l bytes) s = .next (s.commitVerified l k i q data bytes).settle := by
  have hlen : bytes.length = Config.pageBytes := hbytes
  change execCommitVerifyDone l bytes s = _
  simp only [execCommitVerifyDone, hlen, if_true, h]

/-- The end of a step after operations confined to the pool, against the state u before them. -/
structure PoolEnds (u t : State) : Prop where
  lane : ∀ l, ∃ claims passOver, t.lane l = { u.lane l with claims := claims, passOver := passOver }
  remap : t.remap = u.remap
  seq : t.seq = u.seq
  cfg : t.cfg = u.cfg
  space : t.space = u.space
  spaceNow : t.spaceNow = u.spaceNow

theorem poolEnds_of_settled {v : State} (h : PoolOnly u v) (g : Settled v t) : PoolEnds u t := by
  have hnow := g.spaceNow.trans h.spaceNow
  have hlane := g.lane
  have hpool := h.lane
  obtain ⟨_, _, _, _, _, _, _, _, _, _, rfl⟩ := h
  obtain ⟨_, _, _, rfl, -⟩ := g
  exact ⟨fun l => hpool l ▸ hlane l, rfl, rfl, rfl, rfl, hnow⟩

theorem PoolEnds.page (h : PoolEnds u t) (p : PPage) : t.page p = u.page p := by
  obtain ⟨_, _, hlane⟩ := h.lane p.lane
  simp only [State.page, hlane]

theorem PoolEnds.op (h : PoolEnds u t) (l : LaneId) : (t.lane l).op = (u.lane l).op := by
  obtain ⟨_, _, hlane⟩ := h.lane l
  rw [hlane]

/-- How the step of a matching read-back ends. -/
theorem exec_commitMatches (hq : s.Quiet) (hop : (s.lane l).commitOp = some (k, .verifying, i, q, data))
    (hlen : data.length = 88) (hk : s.slot k = some sl) :
    ∃ t, exec (.commitVerifyDone l data) s = .next t ∧ t.slot k = none ∧ PoolEnds (s.copyTaken l i q sl) t ∧
      (s.copyTaken l i q sl).notices <+: t.notices ∧ (t.space ≠ .exhausted → t.Departed s k sl false) := by
  have htaken := mapOnly_copyTaken s l i q sl
  have hpool : PoolOnly (s.copyTaken l i q sl) ((s.copyTaken l i q sl).freeSlot k .completed).exhaust :=
    (poolOnly_freeSlot ..).trans (poolOnly_exhaust _)
  have hkeeps : Keeps (s.copyTaken l i q sl) ((s.copyTaken l i q sl).freeSlot k .completed).exhaust :=
    (keeps_freeSlot ..).trans (keeps_exhaust _)
  have hsettled := settled_refresh ((s.copyTaken l i q sl).freeSlot k .completed).exhaust
  have hends := poolEnds_of_settled hpool hsettled
  have hlink : ((s.copyTaken l i q sl).freeSlot k .completed).exhaust.link = [] :=
    hpool.link.trans (htaken.link.trans hq.2)
  rw [exec_commitVerifyDone hop hlen, State.commitVerified, if_pos rfl, State.completeCommit_of_slot hk,
    settle_of_quiet hlink]
  refine ⟨_, rfl, ?_, hends, (hkeeps.trans (keeps_refresh _)).given, fun hspace => ?_⟩
  · rw [hsettled.slot]
    exact State.slot_exhaust_of_free (State.slot_freeSlot_self ..)
  · have hcalm : ((s.copyTaken l i q sl).freeSlot k .completed).exhaust =
        (s.copyTaken l i q sl).freeSlot k .completed := by
      refine State.exhaust_of_not (State.exhaustion_of_space ?_)
      rwa [(poolOnly_freeSlot ..).space, ← hends.space]
    rw [hcalm] at hsettled ⊢
    exact (htaken.aboutToLeave hk).departed .completed hsettled

theorem State.copyTaken_of_not_mapped (h : s.entry sl.page = .unmapped ∨ s.entry sl.page = .absent)
    (hi : i < (s.lane l).pages.length) (q : Nat) :
    (s.copyTaken l i q sl).remap = s.remap.set sl.page (.mapped { lane := l, index := i } q) ∧
    (s.copyTaken l i q sl).page { lane := l, index := i } =
      { s.page { lane := l, index := i } with state := .mapped sl.page } := by
  rw [State.remap_copyTaken, State.page_copyTaken, s.adopt_of_not_mapped _ q h]
  exact ⟨rfl, State.page_adopted_self _ _ hi⟩

theorem State.copyTaken_of_greater {oq : Nat} (h : s.entry sl.page = .mapped old oq) (hq : oq < q)
    (hne : old ≠ { lane := l, index := i }) (hold : old.index < (s.lane old.lane).pages.length)
    (hi : i < (s.lane l).pages.length) :
    (s.copyTaken l i q sl).remap = s.remap.set sl.page (.mapped { lane := l, index := i } q) ∧
    (s.copyTaken l i q sl).page { lane := l, index := i } =
      { s.page { lane := l, index := i } with state := .mapped sl.page } ∧
    (s.copyTaken l i q sl).page old =
      { s.page old with
        state := if s.cfg.wearLimit ≤ (s.page old).wear ∨ s.cfg.softLimit ≤ (s.page old).soft then .retired
                 else .free } := by
  have hold' : old.index < ((s.adopted sl.page { lane := l, index := i } q).lane old.lane).pages.length := by
    rwa [State.adopted, State.length_pages_setPage, State.lane_setEntry]
  rw [State.remap_copyTaken, State.page_copyTaken, State.page_copyTaken, s.adopt_of_greater _ h hq]
  refine ⟨State.release_remap .., ?_, ?_⟩
  · rw [State.page_release_of_ne _ _ hne.symm, State.page_adopted_self _ _ hi]
  · rw [State.page_release_self _ hold', State.page_adopted_of_ne _ _ hne]
    rfl

theorem State.copyTaken_of_not_greater {oq : Nat} (h : s.entry sl.page = .mapped old oq) (hq : q ≤ oq)
    (hi : i < (s.lane l).pages.length) :
    (s.copyTaken l i q sl).remap = s.remap ∧
    (s.copyTaken l i q sl).page { lane := l, index := i } =
      { s.page { lane := l, index := i } with
        state := if s.cfg.wearLimit ≤ (s.page { lane := l, index := i }).wear ∨
                    s.cfg.softLimit ≤ (s.page { lane := l, index := i }).soft then .retired
                 else .free } := by
  rw [State.remap_copyTaken, State.page_copyTaken, s.adopt_of_not_greater _ h hq]
  exact ⟨State.release_remap .., State.page_release_self _ hi⟩

/-- Settles O47: how the step ends by `exec_commitMatches`, the map and the pages by the cases of the entry. -/
theorem commitCompletes : Obligations.CommitCompletes := by
  intro s l hq r hop hphase hlen sl hsl hpage hindex
  obtain ⟨k, phase, i, q, data⟩ := r
  obtain rfl : phase = .verifying := hphase
  obtain ⟨t, hexec, hslot, hends, hgiven, hdeparted⟩ := exec_commitMatches hq hop hlen hsl
  have htaken := mapOnly_copyTaken s l i q sl
  refine ⟨t, hexec, hslot, (hends.op l).trans (s.op_copyTaken l i q sl), ?_, hends.seq.trans htaken.seq,
    hends.cfg.trans htaken.cfg, hdeparted, fun hentry => ?_, fun old oq hentry => ⟨fun hgreater hne hold => ?_,
      fun hle => ?_⟩⟩
  · rw [hends.space, State.space_copyTaken, hends.spaceNow]
  · rw [hends.remap, hends.page]
    exact State.copyTaken_of_not_mapped hentry hindex q
  · rw [hends.remap, hends.page, hends.page]
    obtain ⟨hremap, hcopy, hreleased⟩ := State.copyTaken_of_greater hentry hgreater hne hold hindex
    refine ⟨hremap, hcopy, hreleased, fun horigin hroom => ?_⟩
    have hmem := mem_notices_copyTaken (l := l) (i := i) horigin hentry hgreater hroom
    rw [moveNotice_eq] at hmem
    exact hgiven.subset hmem
  · rw [hends.remap, hends.page]
    exact State.copyTaken_of_not_greater hentry hle hindex

/-! ### A difference: the target is retired (05 R88) -/

/-- The end of a failed verify but for the queue: the target retired, the failure noted and counted, the lane released,
the slot SEALED with one attempt more. -/
def State.verifyFailed (s : State) (l : LaneId) (k i : Nat) (sl : Slot) : State :=
  (((((s.retire { lane := l, index := i }).give
    (verifyNotice { lane := l, index := i } sl.page (sl.attempts + 1))).countVerifyFailure).endOp l).setSlot k
      (some { sl with phase := .sealed, attempts := sl.attempts + 1 }))

theorem State.failCommit_of_slot (h : s.slot k = some sl) (l : LaneId) (i : Nat) : s.failCommit l k i =
    if sl.attempts + 1 < 3 then ((s.verifyFailed l k i sl).enqueueHead k).exhaust
    else ((s.verifyFailed l k i sl).dropSlot k lostVerify (some { lane := l, index := i })).exhaust := by
  simp only [State.failCommit, h]
  rfl

theorem State.verifyFailed_lane (s : State) (l : LaneId) (k i : Nat) (sl : Slot) :
    (s.verifyFailed l k i sl).lane l =
      { (s.retire { lane := l, index := i }).lane l with op := none, awaitReady := false, discard := false } := by
  cases l <;> rfl

theorem State.retire_frame (s : State) (p : PPage) :
    ∃ laneA laneB, s.retire p = { s with laneA := laneA, laneB := laneB } := ⟨_, _, rfl⟩

theorem State.give_frame (s : State) (n : Notice) : ∃ notices dropped faults,
    s.give n = { s with notices := notices, dropped := dropped, faults := faults } := ⟨_, _, _, rfl⟩

/-- A failed verify changes the lanes, its slot, the notices with their flags and its counter, and nothing else. -/
theorem State.verifyFailed_frame (s : State) (l : LaneId) (k i : Nat) (sl : Slot) :
    ∃ laneA laneB notices dropped faults, s.verifyFailed l k i sl =
      { s with
        laneA := laneA, laneB := laneB, notices := notices, dropped := dropped, faults := faults
        slots := s.slots.set k (some { sl with phase := .sealed, attempts := sl.attempts + 1 })
        stats := { s.stats with verifyFailures := s.stats.verifyFailures + 1 } } := by
  obtain ⟨_, _, hretire⟩ := s.retire_frame { lane := l, index := i }
  unfold State.verifyFailed
  rw [hretire]
  obtain ⟨_, _, _, hgive⟩ := State.give_frame _ (verifyNotice { lane := l, index := i } sl.page (sl.attempts + 1))
  rw [hgive]
  exact ⟨_, _, _, _, _, rfl⟩

theorem State.page_verifyFailed (h : i < (s.lane l).pages.length) (k : Nat) (sl : Slot) :
    (s.verifyFailed l k i sl).page { lane := l, index := i } =
      { s.page { lane := l, index := i } with state := .retired } := by
  have hretired := s.page_retire { lane := l, index := i } { lane := l, index := i }
  rw [State.page_setPage_self (p := { lane := l, index := i }) s _ h] at hretired
  rw [← hretired]
  simp only [State.page, State.verifyFailed_lane]

theorem State.slot_verifyFailed (h : s.slot k = some sl) (l : LaneId) (i : Nat) :
    (s.verifyFailed l k i sl).slot k = some { sl with phase := .sealed, attempts := sl.attempts + 1 } := by
  obtain ⟨_, _, _, _, _, hframe⟩ := s.verifyFailed_frame l k i sl
  rw [hframe]
  exact State.slot_set_self rfl (State.lt_of_slot h)

theorem State.aboutToLeave_verifyFailed (h : s.slot k = some sl) (l : LaneId) (i n : Nat) (p : Option PPage) :
    AboutToLeave ((s.verifyFailed l k i sl).lossNoted k { sl with phase := .sealed, attempts := sl.attempts + 1 } n p)
      s k sl := by
  have hslot := State.slot_verifyFailed h l i
  obtain ⟨_, _, _, _, _, hframe⟩ := s.verifyFailed_frame l k i sl
  rw [hframe] at hslot ⊢
  exact ⟨⟨_, hslot, rfl, rfl⟩, fun _ hj => State.slot_set_of_ne (s := s) rfl hj, rfl, rfl, rfl, rfl, rfl⟩

theorem State.verifyFailed_notices (h : s.notices.length < 32) (l : LaneId) (k i : Nat) (sl : Slot) :
    (s.verifyFailed l k i sl).notices = s.notices ++
      [{ kind := .verifyFailed, lane := some l, index := some i, logical := some sl.page, detail := sl.attempts + 1 }] := by
  have hcounted : ∀ u : State, u.countVerifyFailure.notices = u.notices := fun _ => rfl
  rw [State.verifyFailed, State.setSlot_notices, State.endOp_notices, hcounted,
    State.notices_give_of_room _ _ (by rwa [State.retire_notices]), State.retire_notices]
  rfl

/-! ### Counters and slots after a drop -/

@[simp] theorem State.flushCheck_stats (s : State) (lost : Bool) : (s.flushCheck lost).stats = s.stats := by
  unfold State.flushCheck
  split
  · dsimp only; split <;> simp
  · rfl

theorem State.reportHeld_stats (s : State) (k : Nat) (lost : Bool) : (s.reportHeld k lost).stats = s.stats := by
  unfold State.reportHeld
  repeat' split
  all_goals rfl

@[simp] theorem State.poolReport_stats (s : State) : s.poolReport.stats = s.stats := by
  unfold State.poolReport; split <;> simp

@[simp] theorem State.leaving_stats (s : State) (k : Nat) (sl : Slot) (how : Leave) :
    (s.leaving k sl how).stats = s.stats := by
  unfold State.leaving; dsimp only; split <;> split <;> simp [State.reportHeld_stats]

@[simp] theorem State.freeSlot_stats (s : State) (k : Nat) (how : Leave) : (s.freeSlot k how).stats = s.stats := by
  cases hk : s.slot k with
  | none => simp only [State.freeSlot, hk]
  | some sl =>
    rw [State.freeSlot_of_slot hk, State.poolReport_stats, State.leaving_stats]

theorem State.freeSlot_slots (h : s.slot k = some sl) (how : Leave) :
    (s.freeSlot k how).slots = s.slots.set k none := by
  rw [State.freeSlot_of_slot h, State.poolReport_slots, State.leaving_slots]

theorem State.lossNoted_slots (s : State) (k : Nat) (sl : Slot) (cause : Nat) (p : Option PPage) :
    (s.lossNoted k sl cause p).slots = s.slots := rfl

/-! ### A failed verify ends its step -/

/-- The slot of a failed verify at the head of the queue for another attempt, or dropped after the third (05 R89). -/
def State.retriedOrDropped (s : State) (l : LaneId) (k i : Nat) (sl : Slot) : State :=
  if sl.attempts + 1 < 3 then (s.verifyFailed l k i sl).enqueueHead k
  else (s.verifyFailed l k i sl).dropSlot k lostVerify (some { lane := l, index := i })

theorem poolOnly_retriedOrDropped (s : State) (l : LaneId) (k i : Nat) (sl : Slot) :
    PoolOnly (s.verifyFailed l k i sl) (s.retriedOrDropped l k i sl) := by
  unfold State.retriedOrDropped
  split
  · exact ⟨_, _, _, _, _, _, _, _, _, _, rfl⟩
  · exact poolOnly_dropSlot ..

theorem keeps_retriedOrDropped (s : State) (l : LaneId) (k i : Nat) (sl : Slot) :
    Keeps (s.verifyFailed l k i sl) (s.retriedOrDropped l k i sl) := by
  unfold State.retriedOrDropped
  split
  · exact keeps_enqueueHead ..
  · exact keeps_dropSlot ..

theorem State.retriedOrDropped_stats (h : s.slot k = some sl) (l : LaneId) (i : Nat) :
    (s.retriedOrDropped l k i sl).stats = (s.verifyFailed l k i sl).stats := by
  unfold State.retriedOrDropped
  split
  · rfl
  · rw [State.dropSlot_of_slot (State.slot_verifyFailed h l i), State.freeSlot_stats]
    rfl

/-- Where the space state is not EXHAUSTED, the exhaustion condition adds nothing to a failed verify. -/
theorem State.failCommit_of_space (hspace : s.space ≠ .exhausted) (h : s.slot k = some sl) (l : LaneId) (i : Nat) :
    s.failCommit l k i = s.retriedOrDropped l k i sl := by
  have hcalm : (s.retriedOrDropped l k i sl).exhaust = s.retriedOrDropped l k i sl := by
    obtain ⟨_, _, _, _, _, hframe⟩ := s.verifyFailed_frame l k i sl
    refine State.exhaust_of_not (State.exhaustion_of_space ?_)
    rwa [(poolOnly_retriedOrDropped ..).space, hframe]
  rw [State.failCommit_of_slot h, ← apply_ite State.exhaust]
  exact hcalm

/-- How the step of a differing read-back ends. -/
theorem exec_commitDiffers (hq : s.Quiet) (hop : (s.lane l).commitOp = some (k, .verifying, i, q, data))
    (hlen : bytes.length = 88) (hne : bytes ≠ data) (hspace : s.space ≠ .exhausted) (hk : s.slot k = some sl) :
    ∃ t, exec (.commitVerifyDone l bytes) s = .next t ∧ Settled (s.retriedOrDropped l k i sl) t := by
  have hlink : (s.retriedOrDropped l k i sl).link = [] := by
    obtain ⟨_, _, _, _, _, hframe⟩ := s.verifyFailed_frame l k i sl
    rw [(poolOnly_retriedOrDropped ..).link, hframe]
    exact hq.2
  rw [exec_commitVerifyDone hop hlen, State.commitVerified, if_neg hne, State.failCommit_of_space hspace hk,
    settle_of_quiet hlink]
  exact ⟨_, rfl, settled_refresh _⟩

/-- The lanes, the map and the counter at the end of the step. -/
theorem PoolEnds.of_verifyFailed (h : PoolEnds (s.verifyFailed l k i sl) t) (hi : i < (s.lane l).pages.length) :
    (t.lane l).op = none ∧ t.page { lane := l, index := i } =
      { s.page { lane := l, index := i } with state := .retired } ∧
    i ∈ (t.lane l).markList ∧ (t.lane l).freeList = (s.lane l).freeList ∧ t.remap = s.remap ∧ t.seq = s.seq := by
  obtain ⟨_, _, _, _, _, hframe⟩ := s.verifyFailed_frame l k i sl
  obtain ⟨_, _, hlane⟩ := h.lane l
  rw [h.page, State.page_verifyFailed hi, h.remap, h.seq, hlane, State.verifyFailed_lane, hframe]
  exact ⟨rfl, rfl, s.mem_markList_retire { lane := l, index := i }, s.freeList_retire { lane := l, index := i }, rfl,
    rfl⟩

/-- A slot with attempts left stands SEALED at the head of the queue (05 R88). -/
theorem Settled.of_retry (h : Settled (s.retriedOrDropped l k i sl) t) (hless : sl.attempts + 1 < 3) :
    t.slots = s.slots.set k (some { sl with phase := .sealed, attempts := sl.attempts + 1 }) ∧
    t.commitQueue = k :: s.commitQueue ∧ t.answers = s.answers ∧ t.longCmd = s.longCmd := by
  obtain ⟨_, _, _, _, _, hframe⟩ := s.verifyFailed_frame l k i sl
  rw [State.retriedOrDropped, if_pos hless, hframe] at h
  obtain ⟨_, _, _, rfl, -⟩ := h
  exact ⟨rfl, rfl, rfl, rfl⟩

/-- The COMMIT_LOST notice after the third failure, written out (05 R96). -/
theorem lostNotice_verify (sl : Slot) (p : PPage) : lostNotice sl lostVerify (some p) =
    { kind := .commitLost, lane := some p.lane, index := some p.index, logical := some sl.page
      detail := 1 + 16 * (match sl.origin with | .host => 0 | .relocate => 1 | .migrate _ => 2) } := by
  rw [lostNotice]
  cases sl.origin <;> rfl

/-- After the third failure the slot is dropped, with what its departure enables (05 R89). -/
theorem Settled.of_drop (h : Settled (s.retriedOrDropped l k i sl) t) (hk : s.slot k = some sl)
    (hlast : 3 ≤ sl.attempts + 1) :
    t.slots = s.slots.set k none ∧ t.commitQueue = s.commitQueue.erase k ∧ t.faults.commitLost = true ∧
    t.Departed s k sl true ∧
    (s.notices.length + 1 < 32 → lostNotice sl lostVerify (some { lane := l, index := i }) ∈ t.notices) := by
  have hslot := State.slot_verifyFailed hk l i
  rw [State.retriedOrDropped, if_neg (by omega)] at h
  have hflag := State.dropSlot_commitLost hslot lostVerify (some { lane := l, index := i })
  have hqueue := State.dropSlot_queue (s.verifyFailed l k i sl) k lostVerify (some { lane := l, index := i })
  rw [State.dropSlot_of_slot hslot] at h hflag hqueue
  have hleaves := State.aboutToLeave_verifyFailed hk l i lostVerify (some { lane := l, index := i })
  obtain ⟨x, hx, -⟩ := hleaves.slot
  have hslots := State.freeSlot_slots hx .lost
  obtain ⟨_, _, _, _, _, hframe⟩ := s.verifyFailed_frame l k i sl
  refine ⟨?_, ?_, ?_, hleaves.departed .lost h, fun hroom => ?_⟩
  · rw [h.slots, hslots, State.lossNoted_slots, hframe]
    exact List.set_set ..
  · rw [h.queue, hqueue, hframe]
  · rw [h.faults, hflag]
  · rw [h.notices]
    refine (keeps_freeSlot ..).given.subset ?_
    rw [State.notices_lossNoted (by simpa [State.verifyFailed_notices (show s.notices.length < 32 by omega)] using hroom)]
    exact List.mem_append_right _ List.mem_cons_self

/-- Settles O48: the lanes and the map by `PoolEnds.of_verifyFailed`, the slot by whether it has attempts left. -/
theorem commitVerifyFails : Obligations.CommitVerifyFails := by
  intro s l bytes hq hlen hspace r hop hphase hne sl hsl hindex
  obtain ⟨k, phase, i, q, data⟩ := r
  obtain rfl : phase = .verifying := hphase
  obtain ⟨t, hexec, hsettled⟩ := exec_commitDiffers hq hop hlen hne hspace hsl
  obtain ⟨hop', hpage, hmark, hfree, hremap, hseq⟩ :=
    (poolEnds_of_settled (poolOnly_retriedOrDropped s l k i sl) hsettled).of_verifyFailed hindex
  refine ⟨t, hexec, hop', hpage, hmark, hfree, hremap, hseq, ?_, fun hroom => ?_, hsettled.of_retry,
    fun hlast => ?_⟩
  · obtain ⟨_, _, _, _, _, hframe⟩ := s.verifyFailed_frame l k i sl
    rw [hsettled.stats, State.retriedOrDropped_stats hsl, hframe]
  · have hgiven := (keeps_retriedOrDropped s l k i sl).given
    rw [← hsettled.notices, State.verifyFailed_notices hroom, List.prefix_iff_eq_take] at hgiven
    rw [hgiven]
    simp
  · obtain ⟨hslots, hqueue, hflag, hdeparted, hlost⟩ := hsettled.of_drop hsl hlast
    rw [lostNotice_verify] at hlost
    exact ⟨hslots, hqueue, hflag, hdeparted, hlost⟩

end Sys2Proof.Machine
end

section
/-! PROOFS. The grant of a COMMIT: the slot the engine takes, the page allocated and the program started, or the discard
of a MIGRATE slot that fails its test. -/

namespace Sys2Proof.Machine

variable {s t u : State} {k i q n : Nat} {l : LaneId} {sl : Slot} {ready : Bool}

/-! ### The grant itself (05 R79, 06 R101) -/

theorem State.eligible_grant (s : State) (l : LaneId) (c : Claim) (ready : Bool) (m : LaneId) :
    (s.grant l c ready).eligible m = s.eligible m := by
  funext k
  cases l <;> cases m <;> rfl

/-- The lane after the grant of a COMMIT: the claim is gone and nothing has been passed over since. -/
theorem State.lane_grant_commit (s : State) (l : LaneId) (ready : Bool) : (s.grant l .commit ready).lane l =
    { s.lane l with claims := (s.lane l).claims.erase .commit, passOver := 0, ready := ready } :=
  State.lane_modLane ..

theorem State.page_grant (s : State) (l : LaneId) (c : Claim) (ready : Bool) (p : PPage) :
    (s.grant l c ready).page p = s.page p := State.page_modLane _ rfl p

theorem State.migrationTest_grant (s : State) (l : LaneId) (ready : Bool) (sl : Slot) :
    (s.grant l .commit ready).migrationTest l sl = s.migrationTest l sl := by
  have hentry : (s.grant l .commit ready).entry = s.entry := rfl
  have hcfg : (s.grant l .commit ready).cfg = s.cfg := rfl
  simp only [State.migrationTest, State.page_grant, State.lane_grant_commit, hentry, hcfg]

/-! ### The slot the engine takes (05 R79, R81) -/

theorem Lane.targetFor_eq (x : Lane) (o : Origin) :
    x.targetFor o = if o.targetLane.isSome then x.freeList.getLast? else x.freeList.head? := by
  cases o <;> rfl

/-- The first eligible slot is dispatched, where it passes the test that a MIGRATE slot has to. -/
theorem State.commitSelect_of_pass (hfind : s.commitQueue.find? (s.eligible l) = some k) (hk : s.slot k = some sl)
    (htest : sl.origin.targetLane.isSome = true → s.migrationTest l sl = true) (ready : Bool) (n : Nat) :
    s.commitSelect l ready (n + 1) = s.dispatch l k sl ready := by
  simp only [State.commitSelect, hfind, hk]
  cases horigin : sl.origin with
  | host => rfl
  | relocate => rfl
  | migrate m => simp only [htest (by rw [horigin]; rfl), if_true]

/-- A MIGRATE slot that fails its test is discarded and the queue is taken again. -/
theorem State.commitSelect_of_fail {m : LaneId} (hfind : s.commitQueue.find? (s.eligible l) = some k)
    (hk : s.slot k = some sl) (horigin : sl.origin = .migrate m) (htest : s.migrationTest l sl = false) (ready : Bool)
    (n : Nat) : s.commitSelect l ready (n + 1) = (s.discardSlot k).commitSelect l ready n := by
  simp only [State.commitSelect, hfind, hk, horigin, htest, Bool.false_eq_true, if_false]

theorem State.commitSelect_of_empty (h : s.commitQueue = []) (l : LaneId) (ready : Bool) (n : Nat) :
    s.commitSelect l ready n = s := by
  cases n <;> simp [State.commitSelect, h]

/-! ### Allocation (05 R80, 01 R11) -/

/-- The record of a page that becomes TARGET of a logical page. -/
def PageRec.targeted (r : PageRec) (page : Nat) : PageRec := { r with state := .target page }

/-- The allocation but for the space state. -/
def State.handedOver (s : State) (l : LaneId) (k : Nat) (sl : Slot) (i : Nat) : State :=
  { s.modLane l (fun x =>
      { x with
        pages := x.pages.set i ((s.page { lane := l, index := i }).targeted sl.page)
        freeList := x.freeList.erase i
        op := some (.commit k .programming i s.seq [])
        awaitReady := true }) with
    slots := s.slots.set k (some { sl with phase := .programming { lane := l, index := i } s.seq })
    commitQueue := s.commitQueue.erase k
    seq := s.seq + 1 }

theorem State.modLane_modLane (s : State) (l : LaneId) (f g : Lane → Lane) :
    (s.modLane l f).modLane l g = s.modLane l (fun x => g (f x)) := by
  cases l <;> rfl

theorem State.allocate_eq (s : State) (l : LaneId) (k : Nat) (sl : Slot) (i : Nat) :
    s.allocate l k sl i = (s.handedOver l k sl i).recompute := by
  simp only [State.allocate, State.setPage, State.modLane_modLane]
  rfl

theorem State.lane_handedOver (s : State) (l : LaneId) (k : Nat) (sl : Slot) (i : Nat) :
    (s.handedOver l k sl i).lane l =
      { s.lane l with
        pages := (s.lane l).pages.set i ((s.page { lane := l, index := i }).targeted sl.page)
        freeList := (s.lane l).freeList.erase i
        op := some (.commit k .programming i s.seq [])
        awaitReady := true } := by
  cases l <;> rfl

theorem State.lane_handedOver_other (s : State) (l : LaneId) (k : Nat) (sl : Slot) (i : Nat) :
    (s.handedOver l k sl i).lane l.other = s.lane l.other := by
  cases l <;> rfl

/-- Where a recomputation leaves the space state it gives no notice. -/
theorem State.notices_recompute_of_same (h : s.recompute.space = s.space) : s.recompute.notices = s.notices := by
  rw [State.recompute_space] at h
  rw [s.recompute_of_same h]

/-- A dispatch changes its lane, its slot, the queue and the counter, and the space state with its notice. -/
theorem State.allocate_frame (s : State) (l : LaneId) (k : Nat) (sl : Slot) (i : Nat) :
    ∃ laneA laneB space notices dropped faults, s.allocate l k sl i =
      { s with
        laneA := laneA, laneB := laneB, space := space, notices := notices, dropped := dropped, faults := faults
        slots := s.slots.set k (some { sl with phase := .programming { lane := l, index := i } s.seq })
        commitQueue := s.commitQueue.erase k
        seq := s.seq + 1 } := by
  rw [State.allocate_eq]
  unfold State.recompute
  split <;> exact ⟨_, _, _, _, _, _, rfl⟩

/-! ### The program starts (05 R83) -/

/-- The record of a page after one more program, saturating (01 R8). -/
def PageRec.worn (r : PageRec) : PageRec := { r with wear := min (r.wear + 1) 16777215 }

theorem State.startCommit_of_slot (hk : s.slot k = some sl) (hi : i < (s.lane l).pages.length) (q : Nat) :
    s.startCommit l k i q = s.modLane l (fun x =>
      { x with
        pages := x.pages.set i (s.page { lane := l, index := i }).worn
        op := some (.commit k .programming i q
          (pageImage sl.image (commitTag sl q (s.page { lane := l, index := i }).worn)))
        awaitReady := false
        ready := false
        programs := x.programs + 1 }) := by
  have hpage : (s.bumpWear { lane := l, index := i }).page { lane := l, index := i } =
      (s.page { lane := l, index := i }).worn := State.page_setPage_self (p := { lane := l, index := i }) s _ hi
  simp only [State.startCommit, hk, hpage]
  rw [State.bumpWear, State.setPage, State.beginProgram, State.modLane_modLane]
  rfl

/-- The tag of a committed copy, written out (05 Table 5.2). -/
theorem commitTag_eq (sl : Slot) (q : Nat) (r : PageRec) : commitTag sl q r =
    { kind := (match sl.origin with | .host => 0x01#8 | .relocate => 0x02#8 | .migrate _ => 0x03#8)
      logical := sl.page, seq := q, wear := r.wear, soft := r.soft, poison := sl.poison } := by
  rw [commitTag]
  cases sl.origin <;> rfl

/-! ### A dispatch -/

theorem State.dispatch_of_target (h : (s.lane l).targetFor sl.origin = some i) (k : Nat) (ready : Bool) :
    s.dispatch l k sl ready =
      if ready then (s.allocate l k sl i).startCommit l k i s.seq else s.allocate l k sl i := by
  simp only [State.dispatch, h]

/-- The lane that holds the commit: where ready is seen its program is under way, where it is not it waits. -/
def Lane.dispatched (x : Lane) (k i q : Nat) (sl : Slot) (r : PageRec) (ready : Bool) : Lane :=
  { x with
    pages := x.pages.set i (if ready then (r.targeted sl.page).worn else r.targeted sl.page)
    freeList := x.freeList.erase i
    op := some (.commit k .programming i q (if ready then pageImage sl.image (commitTag sl q r.worn) else []))
    awaitReady := !ready
    ready := !ready && x.ready
    programs := x.programs + (if ready then 1 else 0) }

theorem State.slot_allocate (h : s.slot k = some sl) (l : LaneId) (i : Nat) : (s.allocate l k sl i).slot k =
    some { sl with phase := .programming { lane := l, index := i } s.seq } := by
  obtain ⟨_, _, _, _, _, _, hframe⟩ := s.allocate_frame l k sl i
  rw [hframe]
  exact State.slot_set_self rfl (State.lt_of_slot h)

theorem State.lane_allocate (s : State) (l : LaneId) (k : Nat) (sl : Slot) (i : Nat) :
    (s.allocate l k sl i).lane l = (s.lane l).dispatched k i s.seq sl (s.page { lane := l, index := i }) false := by
  rw [State.allocate_eq, State.lane_recompute, State.lane_handedOver]
  simp [Lane.dispatched]

theorem State.page_allocate (h : i < (s.lane l).pages.length) (k : Nat) (sl : Slot) :
    (s.allocate l k sl i).page { lane := l, index := i } =
      (s.page { lane := l, index := i }).targeted sl.page := by
  simp only [State.page, State.lane_allocate, Lane.dispatched, Bool.false_eq_true, if_false]
  simp [h]

theorem State.setLane_lane (s : State) (l : LaneId) : s.setLane l (s.lane l) = s := by cases l <;> rfl

/-- A dispatch is its allocation, and where ready is seen the start of its program on the lane. -/
theorem State.dispatch_eq (hk : s.slot k = some sl) (htarget : (s.lane l).targetFor sl.origin = some i)
    (hi : i < (s.lane l).pages.length) (ready : Bool) : s.dispatch l k sl ready = (s.allocate l k sl i).setLane l
      ((s.lane l).dispatched k i s.seq sl (s.page { lane := l, index := i }) ready) := by
  rw [State.dispatch_of_target htarget]
  cases ready with
  | false => rw [← State.lane_allocate, State.setLane_lane]; rfl
  | true =>
    have hlen : i < ((s.allocate l k sl i).lane l).pages.length := by
      rwa [State.lane_allocate, Lane.dispatched, List.length_set]
    rw [if_pos rfl, State.startCommit_of_slot (State.slot_allocate hk l i) hlen, State.page_allocate hi, State.modLane,
      State.lane_allocate]
    congr 1
    simp only [Lane.dispatched, Bool.false_eq_true, if_false, if_true, List.set_set, add_zero, Bool.not_true,
      Bool.false_and]
    rfl

/-- A dispatch changes the lanes, its slot, the queue and the counter, and the space state with its notice. -/
theorem State.dispatch_frame (hk : s.slot k = some sl) (htarget : (s.lane l).targetFor sl.origin = some i)
    (hi : i < (s.lane l).pages.length) (ready : Bool) :
    ∃ laneA laneB space notices dropped faults, s.dispatch l k sl ready =
      { s with
        laneA := laneA, laneB := laneB, space := space, notices := notices, dropped := dropped, faults := faults
        slots := s.slots.set k (some { sl with phase := .programming { lane := l, index := i } s.seq })
        commitQueue := s.commitQueue.erase k
        seq := s.seq + 1 } := by
  obtain ⟨_, _, _, _, _, _, hframe⟩ := s.allocate_frame l k sl i
  rw [State.dispatch_eq hk htarget hi, hframe]
  exact ⟨_, _, _, _, _, _, rfl⟩

theorem State.lane_dispatch (hk : s.slot k = some sl) (htarget : (s.lane l).targetFor sl.origin = some i)
    (hi : i < (s.lane l).pages.length) (ready : Bool) :
    (s.dispatch l k sl ready).lane l =
      (s.lane l).dispatched k i s.seq sl (s.page { lane := l, index := i }) ready ∧
    (s.dispatch l k sl ready).lane l.other = s.lane l.other := by
  rw [State.dispatch_eq hk htarget hi, State.lane_setLane, State.lane_setLane_other, State.allocate_eq,
    State.lane_recompute, State.lane_handedOver_other]
  exact ⟨rfl, rfl⟩

/-- The space state is then the one the inputs give, and where it stays as it was nothing is given. -/
theorem State.space_dispatch (hk : s.slot k = some sl) (htarget : (s.lane l).targetFor sl.origin = some i)
    (hi : i < (s.lane l).pages.length) (ready : Bool) :
    (s.dispatch l k sl ready).space = (s.dispatch l k sl ready).spaceNow ∧
    ((s.dispatch l k sl ready).space = s.space → (s.dispatch l k sl ready).notices = s.notices) := by
  have hlane : ∀ m, ((s.dispatch l k sl ready).lane m).online = ((s.allocate l k sl i).lane m).online ∧
      ((s.dispatch l k sl ready).lane m).freeList = ((s.allocate l k sl i).lane m).freeList := fun m => by
    rw [State.dispatch_eq hk htarget hi]
    by_cases hm : m = l
    · subst hm
      rw [State.lane_setLane, State.lane_allocate]
      exact ⟨rfl, rfl⟩
    · rw [laneId_eq_other_of_ne hm, State.lane_setLane_other]
      exact ⟨rfl, rfl⟩
  have hnow := State.spaceNow_congr (t := s.dispatch l k sl ready) (s := s.allocate l k sl i)
    (by rw [State.dispatch_eq hk htarget hi]; rfl) (by rw [State.dispatch_eq hk htarget hi]; rfl) hlane
  rw [hnow, State.dispatch_eq hk htarget hi, State.setLane_space, State.setLane_notices, State.allocate_eq,
    State.recompute_space, State.spaceNow_recompute]
  exact ⟨rfl, fun hsame => State.notices_recompute_of_same ((State.recompute_space _).trans hsame)⟩

/-! ### The step -/

theorem exec_commitGrant (h : s.arbiter l = some .commit) (ready : Bool) : exec (.commitGrant l ready) s =
    .next ((s.grant l .commit ready).commitSelect l ready (s.commitQueue.length + 1)).settle := by
  change execCommitGrant l ready s = _
  simp only [execCommitGrant, h]
  rfl

theorem Settled.port (h : Settled s t) : t.port = s.port := by
  obtain ⟨_, _, _, rfl, -⟩ := h; rfl

theorem Settled.answers (h : Settled s t) : t.answers = s.answers := by
  obtain ⟨_, _, _, rfl, -⟩ := h; rfl

theorem Settled.longCmd (h : Settled s t) : t.longCmd = s.longCmd := by
  obtain ⟨_, _, _, rfl, -⟩ := h; rfl

theorem Settled.passOver_zero (h : Settled s t) (hzero : (s.lane l).passOver = 0) : (t.lane l).passOver = 0 := by
  obtain ⟨_, _, _, rfl, ⟨_, rfl, -⟩, ⟨_, rfl, -⟩, -⟩ := h
  cases l <;> exact (ite_eq_left_iff.mpr fun _ => hzero)

/-- The grant of a COMMIT whose first eligible slot is dispatched. -/
theorem exec_commitGrant_dispatches (hq : s.Quiet) (h : s.arbiter l = some .commit)
    (hfind : s.commitQueue.find? (s.eligible l) = some k) (hk : s.slot k = some sl)
    (htest : sl.origin.targetLane.isSome = true → s.migrationTest l sl = true)
    (htarget : (if sl.origin.targetLane.isSome then (s.lane l).freeList.getLast? else (s.lane l).freeList.head?) = some i)
    (hi : i < (s.lane l).pages.length) (ready : Bool) :
    ∃ t, exec (.commitGrant l ready) s = .next t ∧ Settled ((s.grant l .commit ready).dispatch l k sl ready) t ∧
      ((s.grant l .commit ready).lane l).targetFor sl.origin = some i ∧
      i < ((s.grant l .commit ready).lane l).pages.length := by
  have hfind' : (s.grant l .commit ready).commitQueue.find? ((s.grant l .commit ready).eligible l) = some k := by
    rw [State.eligible_grant]; exact hfind
  have hk' : (s.grant l .commit ready).slot k = some sl := hk
  have htarget' : ((s.grant l .commit ready).lane l).targetFor sl.origin = some i := by
    rw [Lane.targetFor_eq, State.lane_grant_commit]; exact htarget
  have hi' : i < ((s.grant l .commit ready).lane l).pages.length := by rw [State.lane_grant_commit]; exact hi
  have hlink : ((s.grant l .commit ready).dispatch l k sl ready).link = [] := by
    obtain ⟨_, _, _, _, _, _, hframe⟩ := State.dispatch_frame hk' htarget' hi' ready
    rw [hframe]; exact hq.2
  rw [exec_commitGrant h, State.commitSelect_of_pass hfind' hk' (by rwa [State.migrationTest_grant]),
    settle_of_quiet hlink]
  exact ⟨_, rfl, settled_refresh _, htarget', hi'⟩

/-! ### The discard of a MIGRATE slot (05 R81) -/

theorem poolOnly_discardSlot (s : State) (k : Nat) : PoolOnly s (s.discardSlot k) :=
  PoolOnly.trans (t := { s with commitQueue := s.commitQueue.erase k }) ⟨_, _, _, _, _, _, _, _, _, _, rfl⟩
    (poolOnly_freeSlot ..)

theorem State.discardSlot_queue (s : State) (k : Nat) : (s.discardSlot k).commitQueue = s.commitQueue.erase k :=
  State.freeSlot_queue ..

theorem State.discardSlot_slots (h : s.slot k = some sl) : (s.discardSlot k).slots = s.slots.set k none :=
  State.freeSlot_slots (s := { s with commitQueue := s.commitQueue.erase k }) h _

/-- A discard gives no notice, but for the COMMAND_DONE of a long command that it ends. -/
theorem doneAtMost_discardSlot (s : State) (k : Nat) : DoneAtMost s (s.discardSlot k) :=
  DoneAtMost.trans (t := { s with commitQueue := s.commitQueue.erase k }) (.inl ⟨rfl, rfl, rfl⟩)
    (doneAtMost_freeSlot ..)

/-- The grant of a COMMIT whose only queued slot is a MIGRATE slot that fails its test. -/
theorem exec_commitGrant_discards {m : LaneId} (hq : s.Quiet) (h : s.arbiter l = some .commit)
    (hqueue : s.commitQueue = [k]) (helig : s.eligible l k = true) (hk : s.slot k = some sl)
    (horigin : sl.origin = .migrate m) (htest : s.migrationTest l sl = false) (ready : Bool) :
    ∃ t, exec (.commitGrant l ready) s = .next t ∧ Settled ((s.grant l .commit ready).discardSlot k) t := by
  have hqueue' : (s.grant l .commit ready).commitQueue = [k] := hqueue
  have hfind : (s.grant l .commit ready).commitQueue.find? ((s.grant l .commit ready).eligible l) = some k := by
    rw [State.eligible_grant, hqueue', List.find?_cons_of_pos helig]
  have hempty : ((s.grant l .commit ready).discardSlot k).commitQueue = [] := by
    rw [State.discardSlot_queue, hqueue', List.erase_cons_head]
  have hlink : ((s.grant l .commit ready).discardSlot k).link = [] := (poolOnly_discardSlot ..).link.trans hq.2
  rw [exec_commitGrant h, State.commitSelect_of_fail (s := s.grant l .commit ready) hfind hk horigin
    (by rwa [State.migrationTest_grant]), State.commitSelect_of_empty hempty,
    settle_of_quiet hlink]
  exact ⟨_, rfl, settled_refresh _⟩

/-- Settles O39: a dispatch by its lane, its frame and its space state, a discard by the departure of its slot. -/
theorem commitGrantDispatches : Obligations.CommitGrantDispatches := by
  refine ⟨fun s l ready hq h k hfind sl hk htest i htarget hi => ?_,
    fun s l ready hq h hlong k _ hqueue helig sl hk horigin htest => ?_⟩
  · intro old wear
    obtain ⟨t, hexec, hsettled, htarget', hi'⟩ := exec_commitGrant_dispatches hq h hfind hk htest htarget hi ready
    have hk' : (s.grant l .commit ready).slot k = some sl := hk
    obtain ⟨hlane, hother⟩ := State.lane_dispatch hk' htarget' hi' ready
    obtain ⟨hspace, hnotices⟩ := State.space_dispatch hk' htarget' hi' ready
    obtain ⟨_, _, _, _, _, _, hframe⟩ := State.dispatch_frame hk' htarget' hi' ready
    have hends := poolEnds_of_settled (.refl _) hsettled
    have hpass := hsettled.passOver_zero (l := l) (by rw [hlane, State.lane_grant_commit]; rfl)
    obtain ⟨_, _, htaken⟩ := hends.lane l
    obtain ⟨_, _, hidle⟩ := hends.lane l.other
    rw [hlane, State.lane_grant_commit, State.page_grant] at htaken
    rw [hother, State.grant, State.lane_modLane_other] at hidle
    refine ⟨t, hexec, ?_, ?_, ?_, by rw [htaken]; rfl, hpass, ?_, by rw [htaken]; rfl, ?_, by rw [htaken]; rfl, ?_, ?_,
      ?_, ?_, ?_, ?_, ?_, by rw [hidle], by rw [hidle]⟩
    · rw [hsettled.slots, hframe]; rfl
    · rw [hsettled.queue, hframe]; rfl
    · rw [hends.seq, hframe]; rfl
    · rw [htaken]
      cases ready <;> rfl
    · rw [htaken]
      change some (Op.commit k .programming i s.seq
        (if ready then pageImage sl.image (commitTag sl s.seq old.worn) else [])) = _
      rw [commitTag_eq]
      rfl
    · rw [hends.space, hspace, hends.spaceNow]
    · rw [hends.space, hsettled.notices]
      exact hnotices
    · rw [hends.remap, hframe]; rfl
    · rw [hends.cfg, hframe]; rfl
    · rw [hsettled.port, hframe]; rfl
    · rw [hsettled.answers, hframe]; rfl
    · rw [hsettled.longCmd, hframe]; rfl
  · obtain ⟨t, hexec, hsettled⟩ := exec_commitGrant_discards hq h hqueue helig hk horigin htest ready
    have hqueue' : (s.grant l .commit ready).commitQueue = [k] := hqueue
    have hends := poolEnds_of_settled (poolOnly_discardSlot ..) hsettled
    obtain ⟨hnotices, hfaults⟩ := (doneAtMost_discardSlot (s.grant l .commit ready) k).of_no_command hlong
    obtain ⟨_, _, hlane⟩ := hends.lane l
    rw [State.lane_grant_commit] at hlane
    refine ⟨t, hexec, ?_, ?_, hends.seq, hsettled.notices.trans hnotices, hsettled.faults.trans hfaults, ?_⟩
    · rw [hsettled.slots, State.discardSlot_slots (s := s.grant l .commit ready) hk]
      rfl
    · rw [hsettled.queue, State.discardSlot_queue, hqueue', List.erase_cons_head]
    · rw [hlane]
      exact ⟨(State.arbiter_spec h).1, rfl, rfl, hends.remap⟩

end Sys2Proof.Machine
end

section
/-! PROOFS. The arbiter of a free lane: the guarded COMMIT, else the earliest claim of the highest priority. -/

namespace Sys2Proof.Machine

variable {x : Lane} {c : Claim} {n : Nat}

/-! ### The claims of one priority (06 Table 6.1) -/

/-- The priorities of 06 Table 6.1, the highest first. -/
def priorities : List Nat := [1, 2, 3, 4, 5, 6, 7]

theorem priorities_sorted : priorities.Pairwise (· < ·) := by decide

theorem Claim.priority_mem (c : Claim) : c.priority ∈ priorities := by
  cases c <;> simp [priorities, Claim.priority]

theorem Lane.firstOf_eq_none_iff : x.firstOf n = none ↔ ∀ d ∈ x.claims, d.priority ≠ n := by
  simp [Lane.firstOf]

theorem Lane.firstOf_eq_some_iff : x.firstOf n = some c ↔
    c.priority = n ∧ ∃ before after, x.claims = before ++ c :: after ∧ ∀ d ∈ before, d.priority ≠ n := by
  simp [Lane.firstOf, List.find?_eq_some_iff_append]

/-! ### The earliest claim of the highest priority (06 R100) -/

theorem Lane.exists_firstOf (h : x.claims ≠ []) : ∃ c, priorities.findSome? x.firstOf = some c := by
  obtain ⟨d, hd⟩ := List.exists_mem_of_ne_nil _ h
  refine Option.ne_none_iff_exists'.mp fun hnone => ?_
  exact Lane.firstOf_eq_none_iff.mp (List.findSome?_eq_none_iff.mp hnone _ d.priority_mem) d hd rfl

/-- The search by priority finds a claim that no claim has a higher priority than, the earliest of its own. -/
theorem Lane.earliest_of_findSome (h : priorities.findSome? x.firstOf = some c) :
    ∃ before after, x.claims = before ++ c :: after ∧
      (∀ d ∈ before, c.priority < d.priority) ∧ ∀ d ∈ after, c.priority ≤ d.priority := by
  obtain ⟨higher, n, lower, hsplit, hfirst, hnone⟩ := List.findSome?_eq_some_iff.mp h
  obtain ⟨rfl, before, after, hclaims, hbefore⟩ := Lane.firstOf_eq_some_iff.mp hfirst
  have hleast : ∀ d ∈ x.claims, c.priority ≤ d.priority := by
    intro d hd
    have hmem : d.priority ∈ higher ++ c.priority :: lower := hsplit ▸ d.priority_mem
    have hsorted : (higher ++ c.priority :: lower).Pairwise (· < ·) := hsplit ▸ priorities_sorted
    obtain hhigher | heq | hlower := by simpa using hmem
    · exact absurd rfl (Lane.firstOf_eq_none_iff.mp (hnone _ hhigher) d hd)
    · exact heq.ge
    · exact (List.rel_of_pairwise_cons (List.pairwise_append.mp hsorted).2.1 hlower).le
  refine ⟨before, after, hclaims, fun d hd => ?_, fun d hd => hleast d (by simp [hclaims, hd])⟩
  exact lt_of_le_of_ne (hleast d (by simp [hclaims, hd])) (hbefore d hd).symm

/-! ### The claim granted next (06 R100, R101) -/

theorem Lane.nextClaim_of_guard (h : .commit ∈ x.claims) (hpass : 8 ≤ x.passOver) : x.nextClaim = some .commit := by
  simp [Lane.nextClaim, h, hpass, Config.passOverLimit]

theorem Lane.nextClaim_of_no_guard (h : ¬ (.commit ∈ x.claims ∧ 8 ≤ x.passOver)) :
    x.nextClaim = priorities.findSome? x.firstOf :=
  if_neg fun g => h <| by
    obtain ⟨hcommit, hpass⟩ := (Bool.and_eq_true ..).mp g
    exact ⟨by simpa using hcommit, of_decide_eq_true hpass⟩

theorem State.arbiter_of_free {s : State} {l : LaneId} (h : s.laneFree l = true) :
    s.arbiter l = (s.lane l).nextClaim := if_pos h

/-- Settles O24: the guard's branch, then the search by priority, which finds the earliest claim of the highest. -/
theorem arbiterChoosesByPriority : Obligations.ArbiterChoosesByPriority := by
  intro s l
  refine ⟨fun hbusy => if_neg (by simp [hbusy]), fun hfree hcommit hpass => ?_, fun hfree hguard => ?_⟩
  · rw [State.arbiter_of_free hfree, Lane.nextClaim_of_guard hcommit hpass]
  · rw [State.arbiter_of_free hfree, Lane.nextClaim_of_no_guard hguard]
    refine ⟨fun hnone => ?_, fun hsome => ?_⟩
    · simp [Lane.firstOf, hnone]
    · obtain ⟨c, hc⟩ := Lane.exists_firstOf hsome
      obtain ⟨before, after, hclaims, hbefore, hafter⟩ := Lane.earliest_of_findSome hc
      exact ⟨before, after, c, hclaims, hc, hbefore, hafter⟩

end Sys2Proof.Machine
end

section
/-! PROOFS. RESET: what its assertion and its deassertion leave of every block, and the requests that wait on the link
through it. -/

namespace Sys2Proof.Machine

variable {s : State}

/-! ### The blocks of the cold part (09 R138, Table 9.1) -/

/-- The cold part for the levels of the pins, with what a RESET does not clear as it is in `t`: which lanes are ONLINE and
ready, the mount, the drain causes, the serial port, the link, the answers and the queue of commands. -/
def State.clearedAround (t : State) (pins : Pins) : State :=
  { coldState pins t.laneA.ready t.laneB.ready with
    laneA := { freshLane (geometryOf pins.straps) .a t.laneA.ready with online := t.laneA.online }
    laneB := { freshLane (geometryOf pins.straps) .b t.laneB.ready with online := t.laneB.online }
    mount := t.mount, causes := t.causes, serial := t.serial, link := t.link, answers := t.answers
    pending := t.pending }

theorem freshLane_cleared (g : Geometry) (l : LaneId) (ready online : Bool) :
    ({ freshLane g l ready with online := online } : Lane).Cleared g l :=
  ⟨length_freshPages g l, rfl, rfl, rfl, rfl, rfl, rfl, rfl, rfl⟩

theorem State.page_clearedAround (t : State) (pins : Pins) (p : PPage) :
    (t.clearedAround pins).page p = initialRecord p := by
  obtain ⟨l, i⟩ := p
  rw [← getD_freshPages (geometryOf pins.straps)]
  cases l <;> rfl

theorem State.slot_clearedAround (t : State) (pins : Pins) (k : Nat) : (t.clearedAround pins).slot k = none := by
  simp only [State.slot, State.clearedAround, coldState, List.getElem?_replicate]
  split <;> rfl

theorem State.cleared_of_around {t : State} {pins : Pins} (h : t = t.clearedAround pins) : t.Cleared pins.straps := by
  rw [h]
  refine ⟨rfl, rfl, rfl, rfl, rfl, rfl, t.page_clearedAround pins, rfl, rfl, rfl, rfl, rfl, t.slot_clearedAround pins,
    rfl, rfl, rfl, rfl, rfl, rfl, rfl, rfl, rfl, rfl, rfl, rfl, rfl, rfl, fun l => ?_⟩
  cases l
  · exact freshLane_cleared _ .a _ _
  · exact freshLane_cleared _ .b _ _

/-! ### The assertion (06 R102, R111) -/

theorem exec_resetAssertion (h : s.alive = true) (straps : Straps) :
    exec (.resetAssertion straps) s = .next (s.enterReset straps) := if_pos h

theorem Serial.abandoned_eq (x : Serial) : x.abandoned = if x = .idle then .idle else .spent := by
  cases x <;> rfl

theorem State.online_enterReset (s : State) (straps : Straps) (l : LaneId) :
    ((s.enterReset straps).lane l).online = ((s.lane l).online && (s.enterReset straps).geometry.has l) := by
  rw [Bool.and_comm]
  cases l <;> rfl

theorem State.alive_enterReset (s : State) (straps : Straps) : (s.enterReset straps).alive = false := rfl

/-! ### The deassertion (09 R138) -/

theorem exec_resetDeassertion (hpower : s.powered = true) (hreset : s.pins.resetAsserted = true) :
    exec .resetDeassertion s = .next s.leaveReset.settle := if_pos (by simp [hpower, hreset])

/-- The port takes a request from the link, or lets it wait (03 R48). -/
def State.serveOne (s : State) (r : HostRequest) : State :=
  if s.portTakes then ({ s with link := s.link.tail }).takeRequest r else s

theorem State.serveLink_eq (s : State) : s.serveLink = s.link.foldl State.serveOne s := rfl

theorem State.takeRequest_mounting (hmode : s.mode = .mounting) (r : HostRequest) :
    s.takeRequest r = s.answer .retry := by
  cases r with
  | write addr data => exact if_pos (by simp [hmode])
  | read addr len => exact if_pos hmode

theorem State.serveOne_mounting (halive : s.alive = true) (hmode : s.mode = .mounting) (hport : s.port = .idle)
    (r : HostRequest) : s.serveOne r = ({ s with link := s.link.tail }).answer .retry := by
  have htakes : s.portTakes = true := by simp [State.portTakes, halive, hport]
  rw [State.serveOne, if_pos htakes]
  exact State.takeRequest_mounting (s := { s with link := s.link.tail }) hmode r

/-- Each request that waits on the link of a part in MOUNTING is answered RETRY. -/
theorem State.serveLink_mounting (halive : s.alive = true) (hmode : s.mode = .mounting) (hport : s.port = .idle) :
    ∃ stats, s.serveLink = { s with link := [], answers := s.answers ++ List.replicate s.link.length .retry,
                                    stats := stats } := by
  rw [State.serveLink_eq]
  generalize hlink : s.link = rs
  induction rs generalizing s with
  | nil =>
    refine ⟨s.stats, ?_⟩
    rw [List.foldl_nil, List.length_nil, List.replicate_zero, List.append_nil, ← hlink]
  | cons r rs ih =>
    obtain ⟨stats, hrest⟩ := ih (s := ({ s with link := s.link.tail }).answer .retry) halive hmode rfl (by simp [hlink])
    refine ⟨stats, ?_⟩
    rw [List.foldl_cons, State.serveOne_mounting halive hmode hport, hrest]
    simp [State.answer, hport, List.replicate_succ]

/-- With every lane as a RESET leaves it, the end of a step posts no claim in MOUNTING. -/
theorem State.refresh_of_reset {t : State} (hlane : ∀ l, t.lane l = s.leaveReset.lane l) (hmode : t.mode = .mounting) :
    t.refresh = t.refreshLines :=
  State.refresh_of_bare (by simp [hmode]) fun l => by rw [hlane]; cases l <;> exact ⟨rfl, rfl⟩

theorem State.settle_leaveReset (s : State) :
    ∃ stats, s.leaveReset.settle = { s.leaveReset with
      link := [], answers := s.answers ++ List.replicate s.link.length .retry, stats := stats } := by
  obtain ⟨stats, hserve⟩ := State.serveLink_mounting (s := s.leaveReset) rfl rfl rfl
  refine ⟨stats, ?_⟩
  rw [State.settle, hserve, State.refresh_of_reset (s := s) (fun l => by cases l <;> rfl) rfl]
  rfl

theorem State.settle_leaveReset_of_quiet (h : s.link = []) : s.leaveReset.settle = s.leaveReset := by
  rw [settle_of_quiet (s := s.leaveReset) h, State.refresh_of_reset (s := s) (fun _ => rfl) rfl]
  rfl

/-- Settles O5: the three parts of the statement, each from the equation of its command's state. -/
theorem resetClearsEveryBlock : Obligations.ResetClearsEveryBlock := by
  refine ⟨fun straps s halive => ?_, fun s hpower hreset hlink => ?_, fun s hpower hreset => ?_⟩
  · exact ⟨_, exec_resetAssertion halive straps, State.cleared_of_around (t := s.enterReset straps) rfl,
      s.alive_enterReset straps, rfl, s.online_enterReset straps, rfl, Serial.abandoned_eq _, rfl, rfl, rfl⟩
  · refine ⟨_, exec_resetDeassertion hpower hreset, ?_⟩
    rw [State.settle_leaveReset_of_quiet hlink]
    exact ⟨State.cleared_of_around (t := s.leaveReset) (pins := { s.pins with resetAsserted := false }) rfl, fun l => by cases l <;> rfl, rfl, rfl, rfl, rfl, rfl, rfl⟩
  · obtain ⟨stats, hsettle⟩ := s.settle_leaveReset
    refine ⟨_, exec_resetDeassertion hpower hreset, ?_⟩
    rw [hsettle]
    exact ⟨rfl, rfl⟩

end Sys2Proof.Machine
end

section
/-! PROOFS. Ready seen during a wait: the read that is issued, the program that starts, and the record program or mark that
finds the counter spent. -/

namespace Sys2Proof.Machine

variable {s t : State} {l : LaneId} {i : Nat} {o : Op}

/-! ### The waiting operation is issued (06 R97) -/

/-- The lane's device shows ready. -/
def State.readied (s : State) (l : LaneId) : State := s.modLane l (fun x => { x with ready := true })

@[simp] theorem State.lane_readied (s : State) (l : LaneId) :
    (s.readied l).lane l = { s.lane l with ready := true } := s.lane_modLane l _

theorem State.page_readied (s : State) (l : LaneId) (p : PPage) : (s.readied l).page p = s.page p :=
  State.page_modLane _ rfl p

@[simp] theorem State.readied_seq (s : State) (l : LaneId) : (s.readied l).seq = s.seq := rfl
@[simp] theorem State.readied_link (s : State) (l : LaneId) : (s.readied l).link = s.link := rfl
@[simp] theorem State.readied_geometry (s : State) (l : LaneId) : (s.readied l).geometry = s.geometry := rfl

@[simp] theorem State.recordBase_readied (s : State) (l : LaneId) (base seq : Nat) :
    (s.readied l).recordBase base seq = s.recordBase base seq := rfl

theorem exec_readySeen (hwait : (s.lane l).awaitReady = true) (hop : (s.lane l).op = some o) :
    exec (.readySeen l) s = .next ((s.readied l).issue l).settle := if_pos (by simp [hwait, hop])

theorem exec_readySeen_idle (hop : (s.lane l).op = none) : exec (.readySeen l) s = .next s :=
  if_neg (by simp [hop])

theorem settlesTo_readySeen (hwait : (s.lane l).awaitReady = true) (hop : (s.lane l).op = some o)
    (ht : (s.readied l).issue l = t) (hlink : t.link = []) : SettlesTo (exec (.readySeen l) s) t := by
  rw [exec_readySeen hwait hop, ht]
  exact settlesTo_next hlink

theorem State.issue_of_read (hop : (s.lane l).op = some o) (hread : o.isRead = true) :
    s.issue l = s.modLane l (fun x => { x with awaitReady := false }) := by
  cases o with
  | read r n i q => simp only [State.issue, hop]
  | _ => cases hread

theorem State.issue_of_commit {r : Nat × Nat × Nat} (hop : (s.lane l).op = some o) (hr : o.commitOf = some r) :
    s.issue l = s.startCommit l r.1 r.2.1 r.2.2 := by
  cases o with
  | commit k ph i q data => cases hr; simp only [State.issue, hop]
  | _ => cases hr

theorem State.issue_of_record {r : Nat × WorkCfg × Nat} (hop : (s.lane l).op = some o) (hr : o.recordOf = some r) :
    s.issue l = s.startRecord r.1 r.2.1 r.2.2 := by
  cases o with
  | record i ph c base q data => cases hr; simp only [State.issue, hop]
  | _ => cases hr

theorem State.issue_of_mark (hop : (s.lane l).op = some o) (hi : o.markPage = some i) :
    s.issue l = s.startMark l i := by
  cases o with
  | mark j data => cases hi; simp only [State.issue, hop]
  | _ => cases hi

/-! ### A program that takes the counter's sequence (06 R109, 11 R164, 01 R16) -/

/-- The program of page i starts on the lane and takes the counter's value, before the space state is judged. -/
def State.sequenced (s : State) (l : LaneId) (i : Nat) (op : Op) : State :=
  ((s.bumpWear { lane := l, index := i }).takeSeq).beginProgram l op

theorem State.lane_sequenced (s : State) (l : LaneId) (i : Nat) (op : Op) : (s.sequenced l i op).lane l =
    { s.lane l with
      pages := (s.lane l).pages.set i (s.page { lane := l, index := i }).worn
      op := some op, awaitReady := false, ready := false, programs := (s.lane l).programs + 1 } := by
  cases l <;> rfl

theorem State.page_bumpWear (hi : i < (s.lane l).pages.length) :
    (s.bumpWear { lane := l, index := i }).page { lane := l, index := i } = (s.page { lane := l, index := i }).worn :=
  State.page_setPage_self (p := { lane := l, index := i }) s _ hi

theorem State.not_spent (h : s.seq < 0xFFFFFFFFFFFF) : s.spent = false := by
  simpa using mt s.spent_iff.mp (Nat.not_le.mpr h)

theorem State.startMark_of_room (h : s.seq < 0xFFFFFFFFFFFF) (hi : i < (s.lane l).pages.length) : s.startMark l i =
    (s.sequenced l i (.mark i (markImage s.seq (s.page { lane := l, index := i }).worn))).seqTaken := by
  simp only [State.startMark, State.not_spent h, State.page_bumpWear hi]
  rfl

theorem State.startMark_of_spent (h : 0xFFFFFFFFFFFF ≤ s.seq) (l : LaneId) (i : Nat) : s.startMark l i = s.endOp l :=
  if_pos (s.spent_iff.mpr h)

theorem State.startRecord_of_room (h : s.seq < 0xFFFFFFFFFFFF) (hi : i < s.laneA.pages.length) (c : WorkCfg)
    (base : Nat) : s.startRecord i c base =
      (s.sequenced .a i (.record i .programming c (s.recordBase base s.seq) s.seq
        (recordImage s.geometry c (s.recordBase base s.seq) s.seq
          (s.page { lane := .a, index := i }).worn.wear))).seqTaken := by
  simp only [State.startRecord, State.not_spent h, State.page_bumpWear (l := .a) hi]
  rfl

theorem State.startRecord_of_spent (h : 0xFFFFFFFFFFFF ≤ s.seq) (i : Nat) (c : WorkCfg) (base : Nat) :
    s.startRecord i c base = (s.endOp .a).finishLong resultVerifyFailed none := if_pos (s.spent_iff.mpr h)

/-- The pending long command ends where the notice queue has room for its notice. -/
theorem State.finishLong_eq {c : LongCmd} (hlong : s.longCmd = some c) (hroom : s.notices.length < 32) (r : Nat)
    (p : Option Nat) :
    s.finishLong r p = { s with longCmd := none, notices := s.notices ++ [s.doneNotice c r p] } := by
  simp [State.finishLong, hlong, State.give, Config.noticeCapacity, hroom]

theorem State.doneNotice_eq (s : State) (c : LongCmd) (r : Nat) (p : Option Nat) :
    s.doneNotice c r p = s.doneBy c r p := by
  cases c <;> rfl

/-- The space state judged after a sequence was taken: in MOUNTING it keeps its value (01 R19). -/
def State.seqJudged (s : State) : State := if s.mode = .mounting then s else s.recompute

theorem poolOnly_seqTaken (s : State) : PoolOnly s.seqJudged s.seqTaken := by
  unfold State.seqJudged State.seqTaken
  split
  · exact .refl s
  · exact poolOnly_exhaust ..

theorem mapOnly_seqJudged (s : State) : MapOnly s s.seqJudged := by
  unfold State.seqJudged
  split
  · exact .refl s
  · exact mapOnly_recompute s

theorem State.lane_seqJudged (s : State) (l : LaneId) : s.seqJudged.lane l = s.lane l := by
  unfold State.seqJudged
  split
  · rfl
  · exact s.lane_recompute l

theorem State.remap_seqJudged (s : State) : s.seqJudged.remap = s.remap := by
  unfold State.seqJudged
  split
  · rfl
  · exact s.recompute_remap

theorem State.space_seqJudged (h : s.mode ≠ .mounting) : s.seqJudged.space = s.seqJudged.spaceNow := by
  rw [State.seqJudged, if_neg h, State.recompute_space, State.spaceNow_recompute]

/-- What a program that took the counter's sequence leaves at the end of its step. -/
structure ProgramStarted (s t : State) (l : LaneId) (i : Nat) (op : Op) : Prop where
  op : (t.lane l).op = some op
  pages : (t.lane l).pages = (s.lane l).pages.set i (s.page { lane := l, index := i }).worn
  programs : (t.lane l).programs = (s.lane l).programs + 1
  awaitReady : (t.lane l).awaitReady = false
  markList : (t.lane l).markList = (s.lane l).markList
  seq : t.seq = s.seq + 1
  remap : t.remap = s.remap
  space : s.mode ≠ .mounting → t.space = t.spaceNow

theorem programStarted_settle (hlink : s.link = []) (l : LaneId) (i : Nat) (op : Op) :
    ProgramStarted s (s.sequenced l i op).seqTaken.settle l i op := by
  have hpool := poolOnly_seqTaken (s.sequenced l i op)
  have hquiet : (s.sequenced l i op).seqTaken.link = [] :=
    hpool.link.trans ((mapOnly_seqJudged (s.sequenced l i op)).link.trans hlink)
  have hends := poolEnds_of_settled hpool (settled_refresh _)
  rw [← settle_of_quiet hquiet] at hends
  obtain ⟨claims, passOver, hlane⟩ := hends.lane l
  rw [State.lane_seqJudged, State.lane_sequenced] at hlane
  exact {
    op := by rw [hlane]
    pages := by rw [hlane]
    programs := by rw [hlane]
    awaitReady := by rw [hlane]
    markList := by rw [hlane]
    seq := hends.seq.trans (mapOnly_seqJudged (s.sequenced l i op)).seq
    remap := hends.remap.trans (State.remap_seqJudged _)
    space := fun hmode => by
      rw [hends.space, hends.spaceNow, State.space_seqJudged (s := s.sequenced l i op) hmode] }

/-! ### Each operation that waits -/

section
variable (hq : s.Quiet) (hwait : (s.lane l).awaitReady = true) (hop : (s.lane l).op = some o)
include hq hwait hop

theorem readySeen_issues_read (hread : o.isRead = true) : SettlesTo (exec (.readySeen l) s)
    (s.modLane l (fun x => { x with ready := true, awaitReady := false })) := by
  refine settlesTo_readySeen hwait hop ?_ hq.2
  rw [State.issue_of_read (by rw [State.lane_readied]; exact hop) hread, State.readied, State.modLane_modLane]

theorem readySeen_starts_mark (hi : o.markPage = some i) (hseq : s.seq < 0xFFFFFFFFFFFF)
    (hpage : i < (s.lane l).pages.length) : ∃ t, exec (.readySeen l) s = .next t ∧ Keeps s t ∧
      ProgramStarted (s.readied l) t l i (.mark i (markImage s.seq (s.page { lane := l, index := i }).worn)) := by
  have hissue := State.issue_of_mark (s := s.readied l) (by rw [State.lane_readied]; exact hop) hi
  rw [State.startMark_of_room (s := s.readied l) hseq (by rwa [State.lane_readied]), State.page_readied,
    State.readied_seq] at hissue
  refine ⟨_, exec_readySeen hwait hop, (keeps_readyComes s l).trans (keeps_settle _), ?_⟩
  rw [hissue]
  exact programStarted_settle (s := s.readied l) hq.2 ..

theorem readySeen_ends_mark (hi : o.markPage = some i) (hseq : 0xFFFFFFFFFFFF ≤ s.seq) :
    SettlesTo (exec (.readySeen l) s) ((s.idled l).modLane l (fun x => { x with ready := true })) := by
  refine settlesTo_readySeen hwait hop ?_ hq.2
  rw [State.issue_of_mark (s := s.readied l) (by rw [State.lane_readied]; exact hop) hi,
    State.startMark_of_spent (s := s.readied l) hseq, State.readied, State.endOp, State.idled, State.modLane_modLane,
    State.modLane_modLane]

theorem readySeen_starts_commit {r : Nat × Nat × Nat} (hr : o.commitOf = some r) {sl : Slot}
    (hsl : s.slot r.1 = some sl) (hpage : r.2.1 < (s.lane l).pages.length) :
    SettlesTo (exec (.readySeen l) s) (s.modLane l (fun x =>
      { x with
        ready := false
        awaitReady := false
        programs := x.programs + 1
        pages := x.pages.set r.2.1 (s.page { lane := l, index := r.2.1 }).worn
        op := some (.commit r.1 .programming r.2.1 r.2.2
          (pageImage sl.image (commitTag sl r.2.2 (s.page { lane := l, index := r.2.1 }).worn))) })) := by
  refine settlesTo_readySeen hwait hop ?_ hq.2
  rw [State.issue_of_commit (s := s.readied l) (by rw [State.lane_readied]; exact hop) hr,
    State.startCommit_of_slot (s := s.readied l) hsl (by rwa [State.lane_readied]), State.page_readied, State.readied,
    State.modLane_modLane]

end

theorem readySeen_starts_record {r : Nat × WorkCfg × Nat} (hq : s.Quiet) (hwait : s.laneA.awaitReady = true)
    (hop : s.laneA.op = some o) (hr : o.recordOf = some r) (hseq : s.seq < 0xFFFFFFFFFFFF)
    (hpage : r.1 < s.laneA.pages.length) : ∃ t, exec (.readySeen .a) s = .next t ∧ Keeps s t ∧
      ProgramStarted (s.readied .a) t .a r.1 (.record r.1 .programming r.2.1 (s.recordBase r.2.2 s.seq) s.seq
        (recordImage s.geometry r.2.1 (s.recordBase r.2.2 s.seq) s.seq
          (s.page { lane := .a, index := r.1 }).worn.wear)) := by
  have hissue := State.issue_of_record (s := s.readied .a) (l := .a) hop hr
  rw [State.startRecord_of_room (s := s.readied .a) hseq hpage, State.page_readied,
    State.readied_seq, State.readied_geometry, State.recordBase_readied] at hissue
  refine ⟨_, exec_readySeen (l := .a) hwait hop, (keeps_readyComes s .a).trans (keeps_settle _), ?_⟩
  rw [hissue]
  exact programStarted_settle (s := s.readied .a) hq.2 ..

theorem readySeen_ends_record {r : Nat × WorkCfg × Nat} (hq : s.Quiet) (hwait : s.laneA.awaitReady = true)
    (hop : s.laneA.op = some o) (hr : o.recordOf = some r) (hseq : 0xFFFFFFFFFFFF ≤ s.seq)
    (hroom : s.notices.length < 32) {c : LongCmd} (hlong : s.longCmd = some c) :
    SettlesTo (exec (.readySeen .a) s)
      { ((s.idled .a).modLane .a (fun x => { x with ready := true })) with
        longCmd := none
        notices := s.notices ++ [s.doneBy c 2 none] } := by
  refine settlesTo_readySeen (l := .a) hwait hop ?_ hq.2
  rw [State.issue_of_record (s := s.readied .a) (l := .a) hop hr, State.startRecord_of_spent (s := s.readied .a) hseq,
    State.finishLong_eq (s := (s.readied .a).endOp .a) hlong hroom, State.doneNotice_eq]
  rfl

/-! ### All operations -/

/-- Settles O37, operation by operation. -/
theorem readySeenIssues : Obligations.ReadySeenIssues := by
  refine fun s l hq hwait => ⟨fun o hop => ⟨fun hread => readySeen_issues_read hq hwait hop hread,
    fun r hr sl hsl hpage => readySeen_starts_commit hq hwait hop hr hsl hpage, fun r hr hl => ?_,
    fun i hi => ⟨fun hseq hpage => ?_, fun hseq => readySeen_ends_mark hq hwait hop hi hseq⟩⟩,
    fun hop => exec_readySeen_idle hop⟩
  · subst hl
    refine ⟨fun hseq hpage => ?_, fun hseq hroom c hlong => readySeen_ends_record hq hwait hop hr hseq hroom hlong⟩
    obtain ⟨t, hexec, hkeeps, hstart⟩ := readySeen_starts_record hq hwait hop hr hseq hpage
    rw [← State.page_readied s .a] at hstart
    exact ⟨t, hexec, hstart.op, hstart.pages, hstart.seq, hstart.programs, hstart.awaitReady, hkeeps.cfg,
      hkeeps.formatBase, hkeeps.newestRecord, hstart.remap, hstart.space⟩
  · obtain ⟨t, hexec, hkeeps, hstart⟩ := readySeen_starts_mark hq hwait hop hi hseq hpage
    have hpages := hstart.pages
    have hprograms := hstart.programs
    have hmarks := hstart.markList
    rw [State.lane_readied] at hpages hprograms hmarks
    rw [State.page_readied] at hpages
    exact ⟨t, hexec, hstart.op, hpages, hstart.seq, hprograms, hstart.awaitReady, hmarks, hstart.remap, hkeeps.cfg,
      hstart.space⟩

end Sys2Proof.Machine
end

section
/-! PROOFS. What no step of a loss changes any more once the lane is OFFLINE: the ONLINE state, the operation and the
pass-over count of each lane, empty claim lists, the link, the lane flags and the notices given so far (06 R103,
R112). -/

namespace Sys2Proof.Machine

/-- The flag of a lane. -/
def FaultFlags.ofLane (f : FaultFlags) : LaneId → Bool
  | .a => f.laneA
  | .b => f.laneB

theorem FaultFlags.ofLane_eq (f : FaultFlags) (l : LaneId) :
    (match l with | .a => f.laneA | .b => f.laneB) = f.ofLane l := by
  cases l <;> rfl

/-- The lane keeps what it holds outside its pages and lists; claims may go. -/
def LaneStays (x y : Lane) : Prop :=
  y.online = x.online ∧ y.op = x.op ∧ y.passOver = x.passOver ∧ (x.claims = [] → y.claims = [])

theorem LaneStays.refl (x : Lane) : LaneStays x x := ⟨rfl, rfl, rfl, id⟩

theorem LaneStays.trans {x y z : Lane} (h : LaneStays x y) (g : LaneStays y z) : LaneStays x z := by
  obtain ⟨honline, hop, hpass, hclaims⟩ := h
  obtain ⟨gonline, gop, gpass, gclaims⟩ := g
  exact ⟨gonline.trans honline, gop.trans hop, gpass.trans hpass, gclaims ∘ hclaims⟩

/-- What stays through every step of a loss after the lane went OFFLINE. -/
structure LossKept (s t : State) : Prop where
  lane : ∀ l, LaneStays (s.lane l) (t.lane l)
  link : t.link = s.link
  flag : ∀ l, s.faults.ofLane l = true → t.faults.ofLane l = true
  given : s.notices <+: t.notices

variable {s t u : State}

theorem LossKept.refl (s : State) : LossKept s s := ⟨fun _ => .refl _, rfl, fun _ => id, List.prefix_rfl⟩

theorem LossKept.of_same (ha : t.laneA = s.laneA) (hb : t.laneB = s.laneB) (hlink : t.link = s.link)
    (hfaults : t.faults = s.faults) (hnotices : t.notices = s.notices) : LossKept s t where
  lane
    | .a => (congrArg (LaneStays s.laneA) ha).mpr (.refl _)
    | .b => (congrArg (LaneStays s.laneB) hb).mpr (.refl _)
  link := hlink
  flag _ h := hfaults ▸ h
  given := hnotices ▸ List.prefix_rfl

theorem LossKept.trans (h : LossKept s t) (g : LossKept t u) : LossKept s u where
  lane l := (h.lane l).trans (g.lane l)
  link := g.link.trans h.link
  flag l := g.flag l ∘ h.flag l
  given := h.given.trans g.given

theorem LossKept.foldl {α : Type} (f : State → α → State) (hf : ∀ t a, LossKept t (f t a)) (xs : List α) (s : State) :
    LossKept s (xs.foldl f s) := by
  induction xs generalizing s with
  | nil => exact .refl s
  | cons a xs ih => exact (hf s a).trans (ih _)

/-! ### Notices, flags, pages and lanes -/

theorem ofLane_give (s : State) (n : Notice) (l : LaneId) : (s.give n).faults.ofLane l = s.faults.ofLane l := by
  simp only [State.give]
  split <;> cases l <;> rfl

theorem lossKept_give (s : State) (n : Notice) : LossKept s (s.give n) where
  lane l := State.lane_give s n l ▸ .refl _
  link := rfl
  flag l h := ofLane_give s n l ▸ h
  given := give_prefix s n

theorem lossKept_flag (s : State) (f : FaultFlags → FaultFlags)
    (hf : ∀ l, s.faults.ofLane l = true → (f s.faults).ofLane l = true) : LossKept s (s.flag f) where
  lane l := by cases l <;> exact .refl _
  link := rfl
  flag := hf
  given := List.prefix_rfl

theorem ofLane_setSpace (f : FaultFlags) (x : SpaceState) (l : LaneId) : (f.setSpace x).ofLane l = f.ofLane l := by
  cases x <;> cases l <;> rfl

theorem lossKept_recompute (s : State) : LossKept s s.recompute := by
  unfold State.recompute
  split
  · exact .refl s
  · refine LossKept.trans (t := { s with space := s.spaceNow }) ?_ ((lossKept_give _ _).trans (lossKept_flag _ _ ?_))
    · exact .of_same rfl rfl rfl rfl rfl
    · exact fun l h => (ofLane_setSpace ..).trans h

theorem lossKept_modLane (s : State) (m : LaneId) (f : Lane → Lane) (hf : LaneStays (s.lane m) (f (s.lane m))) :
    LossKept s (s.modLane m f) where
  lane l := by
    by_cases h : l = m
    · subst h; exact State.lane_modLane s l f ▸ hf
    · exact State.lane_modLane_of_ne s f h ▸ .refl _
  link := rfl
  flag _ := id
  given := List.prefix_rfl

theorem lossKept_setPage (s : State) (p : PPage) (r : PageRec) : LossKept s (s.setPage p r) :=
  lossKept_modLane _ _ _ (.refl _)

theorem lossKept_finishLong (s : State) (r : Nat) (p : Option Nat) : LossKept s (s.finishLong r p) := by
  unfold State.finishLong
  split
  · exact .refl s
  · exact LossKept.trans (t := { s with longCmd := none }) (.of_same rfl rfl rfl rfl rfl) (lossKept_give ..)

/-! ### The mount goes on (09 R139 to R151) -/

theorem lossKept_judgeClass (s : State) (c : Classed) : LossKept s (s.judgeClass c) := by
  unfold State.judgeClass
  split <;> exact lossKept_setPage ..

theorem lossKept_noteTorn (s : State) (n d : Nat) (c : Candidate) : LossKept s (s.noteTorn n d c) :=
  (lossKept_give ..).trans (lossKept_flag _ _ fun l h => by cases l <;> exact h)

theorem lossKept_mapChosen (s : State) (n : Nat) (c : Candidate) : LossKept s (s.mapChosen n c) :=
  LossKept.trans (t := s.setEntry n (.mapped c.page c.seq)) (.of_same rfl rfl rfl rfl rfl) (lossKept_setPage ..)

theorem lossKept_chooseCopy (s : State) (n : Nat) (cs : List Candidate) : LossKept s (s.chooseCopy n cs) := by
  unfold State.chooseCopy
  split
  · exact (LossKept.foldl _ (fun _ _ => lossKept_noteTorn ..) _ _).trans (lossKept_mapChosen ..)
  · split
    · exact .refl s
    · exact (lossKept_noteTorn ..).trans (lossKept_mapChosen ..)

theorem lossKept_retireMarked (s : State) (l : LaneId) : LossKept s (s.retireMarked l) :=
  LossKept.foldl _ (fun _ _ => lossKept_setPage ..) _ _

theorem lossKept_remap (s : State) (r : List RemapEntry) : LossKept s { s with remap := r } :=
  .of_same rfl rfl rfl rfl rfl

theorem lossKept_choosePhase (s : State) (m : Mount) : LossKept s (s.choosePhase m) := by
  unfold State.choosePhase
  refine .trans ?_ (lossKept_retireMarked _ _)
  refine .trans ?_ (lossKept_retireMarked _ _)
  refine .trans ?_ (LossKept.foldl _ (fun _ _ => lossKept_chooseCopy ..) _ _)
  exact (LossKept.foldl _ (fun _ _ => lossKept_judgeClass ..) _ s).trans (lossKept_remap ..)

theorem lossKept_rebuildPhase (s : State) (m : Mount) : LossKept s (s.rebuildPhase m) := by
  unfold State.rebuildPhase
  refine .trans ?_ (lossKept_give _ _)
  refine .trans ?_ (lossKept_recompute _)
  refine .trans (t := (s.modLane .a Lane.rebuilt).modLane .b Lane.rebuilt) ?_
    (.of_same rfl rfl rfl rfl rfl)
  exact (lossKept_modLane s .a Lane.rebuilt (.refl _)).trans (lossKept_modLane _ .b Lane.rebuilt (.refl _))

theorem lossKept_startTimer (s : State) : LossKept s s.startTimer :=
  .of_same rfl rfl rfl rfl rfl

theorem lossKept_leaveMount (s : State) : LossKept s s.leaveMount := by
  have hleave : LossKept s ({ s with mount := none, mode := s.modeNow }).clampCursor :=
    .of_same rfl rfl rfl rfl rfl
  have htimer : ∀ t : State, LossKept t (if t.mode = .run then t.startTimer else t) := fun t => by
    split
    · exact lossKept_startTimer t
    · exact .refl t
  have hlong : ∀ (t : State) r, LossKept t (if t.longCmd = some .remount then t.finishLong r none else t) :=
    fun t r => by
      split
      · exact lossKept_finishLong ..
      · exact .refl t
  unfold State.leaveMount
  refine .trans ?_ (hlong _ _)
  exact .trans hleave (htimer _)

theorem lossKept_finishMount (s : State) (m : Mount) : LossKept s (s.finishMount m) :=
  (lossKept_choosePhase ..).trans ((lossKept_rebuildPhase ..).trans (lossKept_leaveMount _))

theorem lossKept_mount (s : State) (m : Option Mount) : LossKept s { s with mount := m } :=
  .of_same rfl rfl rfl rfl rfl

theorem lossKept_scanAdvance (s : State) (m : Mount) : LossKept s (s.scanAdvance m) := by
  unfold State.scanAdvance
  split
  · exact lossKept_finishMount ..
  · exact lossKept_mount ..

theorem lossKept_settleSuspect (l : LaneId) (w : Nat) (s : State) (c : Classed) :
    LossKept s (s.settleSuspect l w c) := by
  unfold State.settleSuspect
  split
  · exact lossKept_setPage ..
  · exact .refl s

theorem lossKept_scanOnward (s : State) (m : Mount) (l : LaneId) : LossKept s (s.scanOnward m l) := by
  unfold State.scanOnward
  split
  · exact (LossKept.foldl _ (fun _ _ => lossKept_settleSuspect ..) _ _).trans (lossKept_scanAdvance ..)
  · exact lossKept_scanAdvance ..

theorem lossKept_loadRecord (s : State) (m : Mount) : LossKept s (s.loadRecord m) := by
  unfold State.loadRecord
  split <;> exact .of_same rfl rfl rfl rfl rfl

theorem lossKept_endRecord (s : State) (m : Mount) : LossKept s (s.endRecord m) :=
  (lossKept_loadRecord ..).trans (lossKept_scanAdvance ..)

theorem lossKept_waitAdvance (s : State) (m : Mount) : LossKept s (s.waitAdvance m) := by
  unfold State.waitAdvance
  split
  · exact lossKept_mount ..
  · split
    · exact lossKept_mount ..
    · exact lossKept_endRecord ..

theorem lossKept_mountAfterLoss (s : State) (l : LaneId) : LossKept s (s.mountAfterLoss l) := by
  unfold State.mountAfterLoss
  cases s.mount with
  | none => exact .refl s
  | some m =>
    cases hphase : m.phase with
    | wait => simpa only [hphase] using lossKept_waitAdvance ..
    | record =>
      by_cases hl : l = .a
      · simpa only [hphase, if_pos hl] using lossKept_endRecord ..
      · simpa only [hphase, if_neg hl] using lossKept_mount ..
    | scan =>
      cases hreading : (m.scan l).reading.isSome
      · simpa [hphase, hreading] using lossKept_scanAdvance ..
      · simpa [hphase, hreading] using lossKept_scanOnward ..
    | choose => simpa only [hphase] using .refl s
    | rebuild => simpa only [hphase] using .refl s

end Sys2Proof.Machine
end

section
/-! PROOFS. A lane that went OFFLINE ends its step OFFLINE and bare: the refresh of an OFFLINE lane posts no claim on
it, and the notice of the loss stands where it was given (06 R103, R108). -/

namespace Sys2Proof.Machine

variable {s t v : State} {l : LaneId} {page : Option Nat} {cause : Nat}

/-! ### The refresh posts nothing on an OFFLINE lane (05 R78, 06 R108, 07 R123) -/

theorem State.not_eligible_of_offline (h : (s.lane l).online = false) (k : Nat) : s.eligible l k = false := by
  unfold State.eligible
  split
  · rfl
  · simp [h]

theorem State.not_wantsMark_of_offline (h : (s.lane l).online = false) : s.wantsMark l = false := by
  simp [State.wantsMark, h]

theorem Settled.online (h : Settled s t) (l : LaneId) : (t.lane l).online = (s.lane l).online := by
  obtain ⟨_, _, hlane⟩ := h.lane l
  rw [hlane]

theorem Settled.op (h : Settled s t) (l : LaneId) : (t.lane l).op = (s.lane l).op := by
  obtain ⟨_, _, hlane⟩ := h.lane l
  rw [hlane]

theorem ClaimsSettled.online (h : ClaimsSettled s t) (l : LaneId) : (t.lane l).online = (s.lane l).online := by
  obtain ⟨a, b, n, rfl, ⟨c, p, rfl, -⟩, ⟨d, q, rfl, -⟩⟩ := h
  cases l <;> rfl

theorem State.online_of_not_stale {e : Nat × PPage} (h : s.relocStale e = false) : (s.lane e.2.lane).online = true := by
  simp only [State.relocStale, Bool.or_eq_false_iff, Bool.not_eq_false'] at h
  exact h.2

theorem mem_withdrawBoth {c d : Claim} (h : d ∈ ((s.withdrawBoth c).lane l).claims) : d ∈ (s.lane l).claims :=
  ((State.withdrawBoth_mem_claims s l c d).mp h).1

/-- The refresh posts a relocation read on an ONLINE lane alone. -/
theorem relocClaim_refreshReloc_of_offline (hoff : (s.lane l).online = false)
    (h : .relocationRead ∈ (s.refreshReloc.lane l).claims) : .relocationRead ∈ (s.lane l).claims := by
  obtain ⟨heq, -, -⟩ | ⟨heq, -⟩ | ⟨-, -, n, -, ⟨-, heq⟩ | ⟨e, rest, -, hfresh, heq⟩⟩ := refreshReloc_cases s
  · rwa [heq] at h
  · exact mem_withdrawBoth (heq ▸ h)
  · rw [heq] at h
    cases l <;> exact h
  · have hne : l ≠ e.2.lane := by
      rintro rfl
      simp [State.online_of_not_stale hfresh] at hoff
    rw [heq, State.post, State.lane_modLane_of_ne _ _ hne] at h
    cases l <;> exact h

theorem State.claims_refresh_of_offline (hoff : (s.lane l).online = false) (hclaims : (s.lane l).claims = []) :
    (s.refresh.lane l).claims = [] := by
  have hsettled := settled_refresh s
  have hend : (s.refresh.lane l).online = false := (hsettled.online l).trans hoff
  refine List.eq_nil_iff_forall_not_mem.mpr fun c hc => ?_
  have hother : c.kept = false → False := fun hkept => by
    simpa [hclaims] using (hsettled.mem_claims hkept l).mp hc
  cases c with
  | commit =>
    have hfollows := commitClaims_refresh s l
    rw [List.contains_iff_mem.mpr hc, eq_comm, List.any_eq_true] at hfollows
    obtain ⟨k, -, hk⟩ := hfollows
    simp [State.not_eligible_of_offline hend] at hk
  | mark =>
    have hfollows := markClaims_refresh s l
    rw [List.contains_iff_mem.mpr hc, State.not_wantsMark_of_offline hend] at hfollows
    cases hfollows
  | relocationRead =>
    rw [refresh_eq, lane_refreshLines] at hc
    have hbefore := relocClaim_refreshReloc_of_offline (((claimsSettled_beforeReloc s).online l).trans hoff) hc
    simpa [hclaims] using (relocClaim_beforeReloc s l).mp hbefore
  | hostRead b => exact hother rfl
  | fillRead k => exact hother rfl
  | recordProgram => exact hother rfl
  | patrolRead => exact hother rfl

/-! ### The lane controller's own part of a loss (06 R103) -/

theorem State.lane_takeOffline (s : State) (l : LaneId) (page : Option Nat) (cause : Nat) :
    (s.takeOffline l page cause).lane l =
      { s.lane l with online := false, op := none, awaitReady := false, discard := false, claims := [],
                      passOver := 0 } := by
  cases l <;> rfl

theorem State.lane_takeOffline_other (s : State) (l : LaneId) (page : Option Nat) (cause : Nat) :
    (s.takeOffline l page cause).lane l.other = s.lane l.other := by
  cases l <;> rfl

theorem State.ofLane_takeOffline (s : State) (l : LaneId) (page : Option Nat) (cause : Nat) :
    (s.takeOffline l page cause).faults.ofLane l = true := by
  cases l <;> rfl

theorem State.notices_takeOffline (h : s.notices.length < 32) (l : LaneId) (page : Option Nat) (cause : Nat) :
    (s.takeOffline l page cause).notices = s.notices ++ [offlineNotice l page cause] :=
  State.notices_give_of_room (s.modLane l _) _ h

/-! ### How the step of a loss ends -/

/-- The lane is OFFLINE without operation, claims and pass-over count, its flag is set and its notice is the first
given; the other lane is ONLINE as it was. -/
structure State.WentOffline (t s : State) (l : LaneId) (page : Option Nat) (cause : Nat) : Prop where
  online : (t.lane l).online = false
  op : (t.lane l).op = none
  claims : (t.lane l).claims = []
  passOver : (t.lane l).passOver = 0
  flag : t.faults.ofLane l = true
  notice : s.notices.length < 32 →
    t.notices.take (s.notices.length + 1) = s.notices ++ [offlineNotice l page cause]
  other : (t.lane l.other).online = (s.lane l.other).online

theorem wentOffline_refresh (h : LossKept (s.takeOffline l page cause) v) : v.refresh.WentOffline s l page cause := by
  have hsettled := settled_refresh v
  obtain ⟨honline, hop, hpass, hclaims⟩ := h.lane l
  rw [State.lane_takeOffline] at honline hop hpass hclaims
  obtain ⟨hother, -⟩ := h.lane l.other
  rw [State.lane_takeOffline_other] at hother
  refine ⟨(hsettled.online l).trans honline, (hsettled.op l).trans hop,
    State.claims_refresh_of_offline honline (hclaims rfl), hsettled.passOver_zero hpass,
    hsettled.faults ▸ h.flag l (State.ofLane_takeOffline ..), fun hroom => ?_, (hsettled.online _).trans hother⟩
  have hgiven := h.given
  rw [State.notices_takeOffline hroom] at hgiven
  simpa [hsettled.notices] using (List.prefix_iff_eq_take.mp hgiven).symm

/-- The loss of a lane during a mount (06 R112, 09 R140). -/
theorem mountLose_ends (hq : s.Quiet) (l : LaneId) (page : Option Nat) (cause : Nat) :
    (s.mountLose l page cause).settle.WentOffline s l page cause := by
  have hpatrol : ∀ w : State, w.laneA = s.laneA → w.laneB = s.laneB → w.notices = s.notices →
      w.faults = s.faults → w.link = s.link →
      ((w.takeOffline l page cause).mountAfterLoss l).settle.WentOffline s l page cause := by
    intro w ha hb hn hf hl
    have hkept := lossKept_mountAfterLoss (w.takeOffline l page cause) l
    rw [settle_of_quiet (hkept.link.trans (hl.trans hq.2))]
    have hend := wentOffline_refresh hkept
    have hlane : w.lane l.other = s.lane l.other := by cases l <;> assumption
    exact ⟨hend.online, hend.op, hend.claims, hend.passOver, hend.flag, hn ▸ hend.notice, hlane ▸ hend.other⟩
  unfold State.mountLose
  split
  · exact hpatrol _ rfl rfl rfl rfl rfl
  · exact hpatrol s rfl rfl rfl rfl rfl

end Sys2Proof.Machine
end

section
/-! PROOFS. The steps of a loss in service that follow the lane controller's own part: what each leaves of the map, the
counter, the page records, the pending long command and the port (06 R103 to R106). -/

namespace Sys2Proof.Machine

variable {s t u : State} {k j : Nat}

/-! ### What every step of a loss keeps -/

/-- The slots of the second state are slots of the first, by their origins. -/
def OriginsFrom (s t : State) : Prop := ∀ k x, t.slot k = some x → ∃ y, s.slot k = some y ∧ x.origin = y.origin

theorem OriginsFrom.of_slots (h : t.slots = s.slots) : OriginsFrom s t :=
  fun k x hx => ⟨x, by rwa [State.slot, ← h], rfl⟩

theorem OriginsFrom.trans (h : OriginsFrom s t) (g : OriginsFrom t u) : OriginsFrom s u := by
  intro k x hx
  obtain ⟨y, hy, hxy⟩ := g k x hx
  obtain ⟨z, hz, hyz⟩ := h k y hy
  exact ⟨z, hz, hxy.trans hyz⟩

theorem OriginsFrom.of_freed (h : ∀ j, j ≠ k → t.slot j = s.slot j) (hk : t.slot k = none) : OriginsFrom s t := by
  intro j x hx
  by_cases hj : j = k
  · simp [hj, hk] at hx
  · exact ⟨x, h j hj ▸ hx, rfl⟩

/-- What every step of a loss in service keeps besides `LossKept`: the map, the counter, a patrol record and a long
command that are gone, and the origin of each slot. -/
structure LossStep (s t : State) : Prop extends LossKept s t where
  remap : t.remap = s.remap
  seq : t.seq = s.seq
  patrol : s.patrolRead = none → t.patrolRead = none
  long : s.longCmd = none → t.longCmd = none
  origins : OriginsFrom s t

theorem LossStep.refl (s : State) : LossStep s s := ⟨.refl s, rfl, rfl, id, id, .of_slots rfl⟩

theorem LossStep.trans (h : LossStep s t) (g : LossStep t u) : LossStep s u :=
  ⟨h.toLossKept.trans g.toLossKept, g.remap.trans h.remap, g.seq.trans h.seq, g.patrol ∘ h.patrol, g.long ∘ h.long,
    h.origins.trans g.origins⟩

/-- The lists of the lanes are as they were, and the page records but for their soft counts. -/
structure PagesStay (s t : State) : Prop where
  freeList : ∀ l, (t.lane l).freeList = (s.lane l).freeList
  markList : ∀ l, (t.lane l).markList = (s.lane l).markList
  state : ∀ p, (t.page p).state = (s.page p).state
  wear : ∀ p, (t.page p).wear = (s.page p).wear

theorem PagesStay.refl (s : State) : PagesStay s s := ⟨fun _ => rfl, fun _ => rfl, fun _ => rfl, fun _ => rfl⟩

theorem PagesStay.trans (h : PagesStay s t) (g : PagesStay t u) : PagesStay s u :=
  ⟨fun l => (g.freeList l).trans (h.freeList l), fun l => (g.markList l).trans (h.markList l),
    fun p => (g.state p).trans (h.state p), fun p => (g.wear p).trans (h.wear p)⟩

theorem PagesStay.of_lane (h : ∀ l, t.lane l = s.lane l) : PagesStay s t := by
  have hpage : ∀ p, t.page p = s.page p := fun p => by simp only [State.page, h]
  exact ⟨fun l => h l ▸ rfl, fun l => h l ▸ rfl, fun p => hpage p ▸ rfl, fun p => hpage p ▸ rfl⟩

theorem PagesStay.of_same (ha : t.laneA = s.laneA) (hb : t.laneB = s.laneB) : PagesStay s t :=
  .of_lane fun l => by cases l <;> assumption

theorem PagesStay.shelved (h : PagesStay s t) {p : PPage} (hs : s.Shelved p) : t.Shelved p := by
  unfold State.Shelved
  rw [h.state, h.markList, h.freeList]
  exact hs

/-- A step of a loss that changes no page record but in its soft count. -/
structure CalmStep (s t : State) : Prop extends LossStep s t where
  pages : PagesStay s t

theorem CalmStep.refl (s : State) : CalmStep s s := ⟨.refl s, .refl s⟩

theorem CalmStep.trans (h : CalmStep s t) (g : CalmStep t u) : CalmStep s u :=
  ⟨h.toLossStep.trans g.toLossStep, h.pages.trans g.pages⟩

theorem CalmStep.foldl {α : Type} (f : State → α → State) (hf : ∀ t a, CalmStep t (f t a)) (xs : List α) (s : State) :
    CalmStep s (xs.foldl f s) := by
  induction xs generalizing s with
  | nil => exact .refl s
  | cons a xs ih => exact (hf s a).trans (ih _)

/-! ### Slots that leave and join (02 R41, R45, 05 R92) -/

/-- What the steps of the pool keep: a record command pending, and a port that holds no answer. -/
structure PoolStep (s t : State) : Prop where
  only : PoolOnly s t
  flag : ∀ l, t.faults.ofLane l = s.faults.ofLane l
  given : s.notices <+: t.notices
  long : s.longCmd = none → t.longCmd = none
  origins : OriginsFrom s t
  recording : ∀ c, c.recording = true → s.longCmd = some c → t.longCmd = some c
  port : (∀ ks failed, s.port ≠ .holding ks failed) → t.port = s.port ∧ t.answers = s.answers

theorem PoolStep.refl (s : State) : PoolStep s s :=
  ⟨.refl s, fun _ => rfl, List.prefix_rfl, id, .of_slots rfl, fun _ _ => id, fun _ => ⟨rfl, rfl⟩⟩

theorem PoolStep.trans (h : PoolStep s t) (g : PoolStep t u) : PoolStep s u where
  only := h.only.trans g.only
  flag l := (g.flag l).trans (h.flag l)
  given := h.given.trans g.given
  long := g.long ∘ h.long
  origins := h.origins.trans g.origins
  recording c hc := g.recording c hc ∘ h.recording c hc
  port hport := by
    obtain ⟨hstay, hanswers⟩ := h.port hport
    obtain ⟨gstay, ganswers⟩ := g.port (hstay ▸ hport)
    exact ⟨gstay.trans hstay, ganswers.trans hanswers⟩

theorem PoolStep.foldl {α : Type} (f : State → α → State) (hf : ∀ t a, PoolStep t (f t a)) (xs : List α) (s : State) :
    PoolStep s (xs.foldl f s) := by
  induction xs generalizing s with
  | nil => exact .refl s
  | cons a xs ih => exact (hf s a).trans (ih _)

theorem PoolStep.calm (h : PoolStep s t) : CalmStep s t := by
  obtain ⟨honly, hflag, hgiven, hlong, horigins, -, -⟩ := h
  have hlane := honly.lane
  obtain ⟨_, _, _, _, _, _, _, _, _, _, rfl⟩ := honly
  exact ⟨⟨⟨fun l => hlane l ▸ .refl _, rfl, fun l => (hflag l).trans, hgiven⟩, rfl, rfl, id, hlong, horigins⟩,
    .of_lane hlane⟩

theorem poolStep_queue (s : State) (q : List Nat) : PoolStep s { s with commitQueue := q } :=
  ⟨⟨_, _, _, _, _, _, _, _, _, _, rfl⟩, fun _ => rfl, List.prefix_rfl, id, .of_slots rfl, fun _ _ => id,
    fun _ => ⟨rfl, rfl⟩⟩

theorem DoneAtMost.flag (h : DoneAtMost s t) (l : LaneId) : t.faults.ofLane l = s.faults.ofLane l := by
  obtain ⟨-, hfaults, -⟩ | ⟨-, -, n, -, -, hfaults⟩ := h
  · rw [hfaults]
  · rw [hfaults, ofLane_give]

theorem DoneAtMost.long (h : DoneAtMost s t) (hlong : s.longCmd = none) : t.longCmd = none := by
  obtain ⟨-, -, hsome⟩ | ⟨hsome, -⟩ := h
  · simpa [hlong] using hsome
  · simp [hlong] at hsome

theorem State.freeSlot_recording (s : State) (k : Nat) (how : Leave) {c : LongCmd} (hc : c.recording = true)
    (h : s.longCmd = some c) : (s.freeSlot k how).longCmd = some c := by
  cases hk : s.slot k with
  | none => simpa only [State.freeSlot, hk] using h
  | some sl =>
    have hleaving : (s.leaving k sl how).longCmd = some c := by
      refine (State.leaving_longCmd (.inl fun lost hflush => ?_) how).trans h
      cases Option.some.inj (h.symm.trans hflush)
      cases hc
    rw [State.freeSlot_of_slot hk]
    obtain hsame | ⟨-, -, hquiesce⟩ := State.poolReport_longRule (s.leaving k sl how)
    · exact hsame.trans hleaving
    · cases Option.some.inj (hleaving.symm.trans hquiesce)
      cases hc

theorem State.reportHeld_of_not_holding (h : ∀ ks failed, s.port ≠ .holding ks failed) (k : Nat) (lost : Bool) :
    s.reportHeld k lost = s := by
  unfold State.reportHeld
  split
  · rename_i ks failed hport
    exact absurd hport (h ks failed)
  · rfl

theorem State.freeSlot_port (s : State) (k : Nat) (how : Leave) (h : ∀ ks failed, s.port ≠ .holding ks failed) :
    (s.freeSlot k how).port = s.port ∧ (s.freeSlot k how).answers = s.answers := by
  cases hk : s.slot k with
  | none => simp only [State.freeSlot, hk, and_self]
  | some sl =>
    rw [State.freeSlot_of_slot hk]
    simp only [State.poolReport_port, State.poolReport_answers, State.leaving,
      State.reportHeld_of_not_holding (s := s.setSlot k none) h, ite_self]
    split <;> simp

theorem poolStep_freeSlot (s : State) (k : Nat) (how : Leave) : PoolStep s (s.freeSlot k how) where
  only := poolOnly_freeSlot ..
  flag := (doneAtMost_freeSlot s k how).flag
  given := (keeps_freeSlot s k how).given
  long := (doneAtMost_freeSlot s k how).long
  origins := .of_freed (fun _ => State.slot_freeSlot_of_ne how) (State.slot_freeSlot_self s k how)
  recording _ hc := s.freeSlot_recording k how hc
  port := s.freeSlot_port k how

theorem poolStep_discardSlot (s : State) (k : Nat) : PoolStep s (s.discardSlot k) :=
  (poolStep_queue s (s.commitQueue.erase k)).trans (poolStep_freeSlot _ k .discarded)

theorem poolStep_discardBound (s : State) (l : LaneId) : PoolStep s (s.discardBound l) :=
  .foldl _ poolStep_discardSlot _ _

theorem poolStep_lossNoted (s : State) (k : Nat) (sl : Slot) (cause : Nat) (p : Option PPage) :
    PoolStep s (s.lossNoted k sl cause p) where
  only := poolOnly_lossNoted ..
  flag l := by
    refine Eq.trans ?_ (ofLane_give { s with commitQueue := s.commitQueue.erase k } (lostNotice sl cause p) l)
    cases l <;> rfl
  given := give_prefix { s with commitQueue := s.commitQueue.erase k } _
  long := id
  origins := .of_slots rfl
  recording _ _ := id
  port _ := ⟨rfl, rfl⟩

theorem poolStep_dropSlot (s : State) (k cause : Nat) (p : Option PPage) : PoolStep s (s.dropSlot k cause p) := by
  cases hk : s.slot k with
  | none => rw [State.dropSlot_of_free hk]; exact poolStep_queue ..
  | some sl => rw [State.dropSlot_of_slot hk]; exact (poolStep_lossNoted ..).trans (poolStep_freeSlot ..)

theorem poolStep_exhaust (s : State) : PoolStep s s.exhaust := by
  unfold State.exhaust
  split
  · exact .foldl _ (fun t j => poolStep_dropSlot t j lostExhausted none) _ _
  · exact .refl s

theorem poolStep_setSlot (s : State) {sl x : Slot} (hk : s.slot k = some sl) (hx : x.origin = sl.origin) :
    PoolStep s (s.setSlot k (some x)) where
  only := ⟨_, _, _, _, _, _, _, _, _, _, rfl⟩
  flag _ := rfl
  given := List.prefix_rfl
  long := id
  recording _ _ := id
  port _ := ⟨rfl, rfl⟩
  origins j y hy := by
    by_cases hj : j = k
    · subst hj
      rw [State.slot_set_self (o := some x) rfl (State.lt_of_slot hk)] at hy
      exact ⟨sl, hk, Option.some.inj hy ▸ hx⟩
    · rw [State.slot_set_of_ne (o := some x) rfl hj] at hy
      exact ⟨y, hy, rfl⟩

/-- A lost fill takes no source, and is dropped at once where the exhaustion condition held (06 R104, R105). -/
theorem poolStep_fillLost (s : State) (held : Bool) (k : Nat) : PoolStep s (s.fillLost held k) := by
  cases hk : s.slot k with
  | none => simpa [State.fillLost, State.fillWithoutSource, State.completeFill, State.joinFilled, hk] using .refl s
  | some sl =>
    have hset := poolStep_setSlot s (x := sl.filled erasedImage 0xFF#8) hk rfl
    cases held with
    | true =>
      have heq : s.fillLost true k = (s.setSlot k (some (sl.filled erasedImage 0xFF#8))).enqueueTail k :=
        State.completeFill_of_slot hk ..
      exact heq ▸ hset.trans ((poolStep_queue ..).trans (poolStep_exhaust _))
    | false =>
      have heq : s.fillLost false k = _ := joinFilled_of_slot hk erasedImage 0xFF#8
      exact heq ▸ hset.trans (poolStep_queue ..)

end Sys2Proof.Machine
end

section
/-! PROOFS. The read a lost lane ends for the host, the commit it cuts short, the record program it ends, and the space
state judged last: each a step of the loss (03 R62, 05 R91, 06 R104, R106). -/

namespace Sys2Proof.Machine

variable {s t u : State} {k : Nat} {l : LaneId} {sl : Slot}

/-! ### The host port's part (03 R62) -/

/-- What the host port makes of a page that ends: pool, queue and long command are as they were. -/
structure ReadStep (s t : State) : Prop extends CalmStep s t where
  slots : t.slots = s.slots
  queue : t.commitQueue = s.commitQueue
  command : t.longCmd = s.longCmd

theorem ReadStep.refl (s : State) : ReadStep s s := ⟨.refl s, rfl, rfl, rfl⟩

theorem ReadStep.trans (h : ReadStep s t) (g : ReadStep t u) : ReadStep s u :=
  ⟨h.toCalmStep.trans g.toCalmStep, g.slots.trans h.slots, g.queue.trans h.queue, g.command.trans h.command⟩

theorem ReadStep.foldl {α : Type} (f : State → α → State) (hf : ∀ t a, ReadStep t (f t a)) (xs : List α) (s : State) :
    ReadStep s (xs.foldl f s) := by
  induction xs generalizing s with
  | nil => exact .refl s
  | cons a xs ih => exact (hf s a).trans (ih _)

theorem readStep_port (s : State) (port : Port) (answers : List HostAnswer) (list : List (Nat × PPage))
    (stats : Stats) :
    ReadStep s { s with port := port, answers := answers, relocList := list, stats := stats } :=
  ⟨⟨⟨.of_same rfl rfl rfl rfl rfl, rfl, rfl, id, id, .of_slots rfl⟩, .of_same rfl rfl⟩, rfl, rfl, rfl⟩

theorem State.page_setPage_cases (s : State) (p q : PPage) (r : PageRec) :
    (s.setPage p r).page q = s.page q ∨ (q = p ∧ (s.setPage p r).page q = r) := by
  by_cases hq : q = p
  · subst hq
    by_cases hlt : q.index < (s.lane q.lane).pages.length
    · exact .inr ⟨rfl, State.page_setPage_self s r hlt⟩
    · exact .inl (by simp [State.page, List.set_eq_of_length_le (Nat.not_lt.mp hlt)])
  · exact .inl (State.page_setPage_of_ne s r hq)

theorem pagesStay_setPage (s : State) (p : PPage) {r : PageRec} (hstate : r.state = (s.page p).state)
    (hwear : r.wear = (s.page p).wear) : PagesStay s (s.setPage p r) := by
  have hlane : ∀ l, ∃ pages, (s.setPage p r).lane l = { s.lane l with pages := pages } := fun l => by
    by_cases hl : l = p.lane
    · exact ⟨_, hl ▸ State.lane_setPage s p r⟩
    · exact ⟨(s.lane l).pages, State.lane_modLane_of_ne s _ hl⟩
  refine ⟨fun l => ?_, fun l => ?_, fun q => ?_, fun q => ?_⟩
  · obtain ⟨_, h⟩ := hlane l
    rw [h]
  · obtain ⟨_, h⟩ := hlane l
    rw [h]
  · obtain h | ⟨rfl, h⟩ := s.page_setPage_cases p q r
    · rw [h]
    · rw [h, hstate]
  · obtain h | ⟨rfl, h⟩ := s.page_setPage_cases p q r
    · rw [h]
    · rw [h, hwear]

theorem readStep_softened (s : State) (p : PPage) : ReadStep s (s.softened p) := by
  unfold State.softened
  split
  · exact .refl s
  · exact ⟨⟨⟨lossKept_setPage .., rfl, rfl, id, id, .of_slots rfl⟩, pagesStay_setPage s p rfl rfl⟩, rfl, rfl, rfl⟩

theorem readStep_relocRequest (s : State) (n : Nat) (p : PPage) : ReadStep s (s.relocRequest n p) := by
  rw [State.relocRequest_eq]
  split
  · exact (readStep_softened s p).trans
      (readStep_port _ (s.softened p).port (s.softened p).answers _ (s.softened p).stats)
  · exact .refl s

theorem readStep_pageRequest (s : State) (rp : ReadPage) : ReadStep s (s.pageRequest rp) := by
  unfold State.pageRequest
  split
  · exact readStep_relocRequest ..
  · exact .refl s

theorem readStep_withdraw (s : State) (m : LaneId) (c : Claim) : ReadStep s (s.withdraw m c) := by
  have hpages : PagesStay s (s.withdraw m c) := by
    refine ⟨fun l => ?_, fun l => ?_, fun p => ?_, fun p => ?_⟩
    · cases l <;> cases m <;> rfl
    · cases l <;> cases m <;> rfl
    · exact congrArg PageRec.state (State.page_modLane s rfl p)
    · exact congrArg PageRec.wear (State.page_modLane s rfl p)
  refine ⟨⟨⟨lossKept_modLane _ _ _ ⟨rfl, rfl, rfl, fun h => ?_⟩, rfl, rfl, id, id, .of_slots rfl⟩, hpages⟩,
    rfl, rfl, rfl⟩
  simp [h]

theorem readStep_withdrawBoth (s : State) (c : Claim) : ReadStep s (s.withdrawBoth c) :=
  (readStep_withdraw s .a c).trans (readStep_withdraw _ .b c)

theorem readStep_withdrawHostReads (s : State) : ReadStep s s.withdrawHostReads :=
  (readStep_withdrawBoth s _).trans (readStep_withdrawBoth _ _)

/-- The pages of a read go on or its answer is given, with the requests that follow. -/
theorem readStep_readOn (s : State) (ps : List ReadPage) :
    ReadStep s (if ps.any ReadPage.open? then { s with port := .reading ps }
      else ps.foldl State.pageRequest (s.answer (readAnswer ps))) := by
  split
  · exact readStep_port s (.reading ps) s.answers s.relocList s.stats
  · exact (readStep_port s .idle _ s.relocList _).trans (.foldl _ readStep_pageRequest ps _)

theorem readStep_advanceRead (s : State) (ps : List ReadPage) : ReadStep s (s.advanceRead ps) := by
  cases hfailed : ps.any ReadPage.failed with
  | true => exact State.advanceRead_failed (s := s) hfailed ▸ (readStep_withdrawHostReads s).trans (readStep_readOn ..)
  | false =>
    have heq : s.advanceRead ps = if ps.any ReadPage.open? then { s with port := .reading ps }
      else ps.foldl State.pageRequest (s.answer (readAnswer ps)) := by
      simp [State.advanceRead, hfailed]
    exact heq ▸ readStep_readOn s ps

theorem readStep_setProgress (s : State) (b : Bool) (g : ReadProgress) : ReadStep s (s.setProgress b g) := by
  unfold State.setProgress
  split
  · exact readStep_advanceRead ..
  · exact .refl s

/-! ### The units that only leave something (06 R104, R106, 11 R163) -/

theorem calmStep_finishLong (s : State) (r : Nat) (p : Option Nat) : CalmStep s (s.finishLong r p) :=
  have hdone := doneAtMost_finishLong s r p
  have hlane := (poolOnly_finishLong s r p).lane
  ⟨⟨lossKept_finishLong .., (by unfold State.finishLong; split <;> rfl), (by unfold State.finishLong; split <;> rfl),
    (by unfold State.finishLong; split <;> exact id), hdone.long, .of_slots (by simp)⟩, .of_lane hlane⟩

theorem calmStep_patrolRead (s : State) : CalmStep s { s with patrolRead := none } :=
  ⟨⟨.of_same rfl rfl rfl rfl rfl, rfl, rfl, fun _ => rfl, id, .of_slots rfl⟩, .of_same rfl rfl⟩

theorem readStep_dropRelocHead (s : State) (n : Nat) (p : PPage) : ReadStep s (s.dropRelocHead n p) := by
  unfold State.dropRelocHead
  split
  · exact readStep_port s s.port s.answers _ s.stats
  · exact .refl s

theorem calmStep_recompute (s : State) : CalmStep s s.recompute := by
  refine ⟨⟨lossKept_recompute s, State.recompute_remap s, ?_, ?_, ?_, .of_slots ?_⟩, .of_lane s.lane_recompute⟩
  all_goals
    unfold State.recompute
    split
    all_goals first | rfl | exact id

theorem calmStep_answerLost (held : Bool) (s : State) (c : Claim) : CalmStep s (s.answerLost held c) := by
  cases c with
  | hostRead b => exact (readStep_setProgress ..).toCalmStep
  | fillRead k => exact (poolStep_fillLost ..).calm
  | recordProgram => exact calmStep_finishLong ..
  | commit => exact .refl s
  | relocationRead => exact .refl s
  | mark => exact .refl s
  | patrolRead => exact calmStep_patrolRead s

/-! ### The commit cut short (05 R91) -/

theorem lossStep_release (s : State) (p : PPage) (n : Nat) : LossStep s (s.release p n) := by
  have hkept : LossKept s (s.release p n) := by
    unfold State.release
    split
    · exact (lossKept_setPage ..).trans ((lossKept_modLane _ _ _ (.refl _)).trans (lossKept_give ..))
    · exact (lossKept_setPage ..).trans (lossKept_modLane _ _ _ (.refl _))
  have hremap := State.release_remap s p n
  obtain ⟨_, _, _, _, _, _, _, heq⟩ := mapOnly_release s p n
  exact ⟨hkept, hremap, by rw [heq], by rw [heq]; exact id, by rw [heq]; exact id, .of_slots (by rw [heq])⟩

/-- The slot of a commit cut short as it returns to the head of the queue. -/
def Slot.resealed (sl : Slot) : Slot := { sl with phase := .sealed }

theorem State.loseCommit_of_migrate (hk : s.slot k = some sl) (h : sl.origin.targetLane.isSome = true) (l : LaneId)
    (i : Nat) : s.loseCommit l k i = (s.release { lane := l, index := i } sl.page).freeSlot k .discarded := by
  unfold State.loseCommit
  rw [hk]
  dsimp only
  split
  · rfl
  · rename_i hne
    cases horigin : sl.origin with
    | migrate m => exact absurd horigin (hne m)
    | host => simp [horigin, Origin.targetLane] at h
    | relocate => simp [horigin, Origin.targetLane] at h

theorem State.loseCommit_of_kept (hk : s.slot k = some sl) (h : sl.origin.targetLane = none) (l : LaneId) (i : Nat) :
    s.loseCommit l k i =
      ((s.release { lane := l, index := i } sl.page).setSlot k (some sl.resealed)).enqueueHead k := by
  unfold State.loseCommit
  rw [hk]
  dsimp only
  split
  · rename_i m horigin
    simp [horigin, Origin.targetLane] at h
  · rfl

theorem State.loseCommit_of_free (hk : s.slot k = none) (l : LaneId) (i : Nat) : s.loseCommit l k i = s := by
  simp only [State.loseCommit, hk]

/-- After the release of its target a commit cut short is a step of the pool. -/
theorem poolStep_loseCommit (hk : s.slot k = some sl) (l : LaneId) (i : Nat) :
    PoolStep (s.release { lane := l, index := i } sl.page) (s.loseCommit l k i) := by
  have hslot : (s.release { lane := l, index := i } sl.page).slot k = some sl := by
    rw [State.slot, State.release_slots]
    exact hk
  cases horigin : sl.origin.targetLane with
  | none =>
    rw [State.loseCommit_of_kept hk horigin]
    exact (poolStep_setSlot _ (x := sl.resealed) hslot rfl).trans (poolStep_queue ..)
  | some m =>
    rw [State.loseCommit_of_migrate hk (by rw [horigin]; rfl)]
    exact poolStep_freeSlot ..

theorem lossStep_loseCommit (s : State) (l : LaneId) (k i : Nat) : LossStep s (s.loseCommit l k i) := by
  cases hk : s.slot k with
  | none => rw [State.loseCommit_of_free hk]; exact .refl s
  | some sl => exact (lossStep_release ..).trans (poolStep_loseCommit hk l i).calm.toLossStep

theorem lossStep_endLostOp (s : State) (l : LaneId) (op : Option Op) (started held : Bool) :
    LossStep s (s.endLostOp l op started held) := by
  unfold State.endLostOp
  split
  · exact .refl s
  · exact (readStep_setProgress ..).toLossStep
  · exact (poolStep_fillLost ..).calm.toLossStep
  · exact (readStep_dropRelocHead ..).toLossStep
  · exact (calmStep_patrolRead s).toLossStep
  · exact lossStep_loseCommit ..
  · exact (calmStep_finishLong ..).toLossStep
  · exact .refl s

/-! ### The loss step by step (06 R103 to R106) -/

/-- The state after the lane controller's part and the end of the operation in progress. -/
def State.opEnded (s : State) (l : LaneId) (page : Option Nat) (cause : Nat) : State :=
  (s.takeOffline l page cause).endLostOp l (s.lane l).op (!(s.lane l).awaitReady) s.exhaustion

/-- The state after every reader has been told of the loss, before the space state is judged. -/
def State.readersTold (s : State) (l : LaneId) (page : Option Nat) (cause : Nat) : State :=
  (s.lane l).inGrantOrder.foldl (State.answerLost s.exhaustion) ((s.opEnded l page cause).discardBound l)

theorem State.loseLane_eq (s : State) (l : LaneId) (page : Option Nat) (cause : Nat) :
    s.loseLane l page cause = (s.readersTold l page cause).recompute.exhaust := rfl

theorem lossStep_opEnded (s : State) (l : LaneId) (page : Option Nat) (cause : Nat) :
    LossStep (s.takeOffline l page cause) (s.opEnded l page cause) := lossStep_endLostOp ..

theorem calmStep_readersTold (s : State) (l : LaneId) (page : Option Nat) (cause : Nat) :
    CalmStep (s.opEnded l page cause) (s.readersTold l page cause) :=
  (poolStep_discardBound ..).calm.trans (.foldl _ (fun _ _ => calmStep_answerLost ..) _ _)

theorem calmStep_judged (s : State) : CalmStep s s.recompute.exhaust :=
  (calmStep_recompute s).trans (poolStep_exhaust _).calm

/-- Every step after the end of the operation in progress. -/
theorem calmStep_loseLane (s : State) (l : LaneId) (page : Option Nat) (cause : Nat) :
    CalmStep (s.opEnded l page cause) (s.loseLane l page cause) :=
  (calmStep_readersTold ..).trans (calmStep_judged _)

theorem lossStep_loseLane (s : State) (l : LaneId) (page : Option Nat) (cause : Nat) :
    LossStep (s.takeOffline l page cause) (s.loseLane l page cause) :=
  (lossStep_opEnded ..).trans (calmStep_loseLane ..).toLossStep

end Sys2Proof.Machine
end

section
/-! PROOFS. The queue at a loss: what leaves it, what joins it, and that no MIGRATE slot bound to the lost lane stays in
it (06 R104, R105). -/

namespace Sys2Proof.Machine

variable {s t u v : State} {k j : Nat} {l : LaneId} {sl x : Slot}

/-! ### Slots and queue after the steps of the pool -/

theorem OriginsFrom.free (h : OriginsFrom s t) (hk : s.slot k = none) : t.slot k = none := by
  cases ht : t.slot k with
  | none => rfl
  | some x =>
    obtain ⟨y, hy, -⟩ := h k x ht
    simp [hk] at hy

theorem State.boundTo_iff : s.boundTo l k = true ↔ ∃ x, s.slot k = some x ∧ x.origin = .migrate l := by
  cases h : s.slot k <;> simp [State.boundTo, h]

theorem OriginsFrom.boundTo (h : OriginsFrom s t) (hk : t.boundTo l k = true) : s.boundTo l k = true := by
  obtain ⟨x, hx, hbound⟩ := State.boundTo_iff.mp hk
  obtain ⟨y, hy, horigin⟩ := h k x hx
  exact State.boundTo_iff.mpr ⟨y, hy, horigin ▸ hbound⟩

theorem OriginsFrom.not_boundTo (h : OriginsFrom s t) (hk : s.boundTo l k = false) : t.boundTo l k = false :=
  Bool.eq_false_iff.mpr fun ht => Bool.eq_false_iff.mp hk (h.boundTo ht)

theorem State.slot_discardSlot_self (s : State) (k : Nat) : (s.discardSlot k).slot k = none :=
  State.slot_freeSlot_self ..

theorem State.slot_discardSlot_of_ne (h : j ≠ k) : (s.discardSlot k).slot j = s.slot j :=
  State.slot_freeSlot_of_ne (s := { s with commitQueue := s.commitQueue.erase k }) .discarded h

theorem State.exhaust_queue_subset (s : State) : s.exhaust.commitQueue ⊆ s.commitQueue := by
  cases h : s.exhaustion with
  | false => rw [State.exhaust_of_not h]; exact List.Subset.refl _
  | true => rw [(State.exhaust_of h).2.1]; exact List.nil_subset _

/-- A lost fill adds its own slot to the queue and no other. -/
theorem State.mem_queue_fillLost {held : Bool} (h : j ∈ (s.fillLost held k).commitQueue) :
    j ∈ s.commitQueue ∨ j = k := by
  cases hk : s.slot k with
  | none =>
    simp only [State.fillLost, State.fillWithoutSource, State.completeFill, State.joinFilled, hk, ite_self] at h
    exact .inl h
  | some sl =>
    have hjoined : j ∈ s.commitQueue ++ [k] := by
      cases held with
      | true =>
        have heq : s.fillLost true k = (s.setSlot k (some (sl.filled erasedImage 0xFF#8))).enqueueTail k :=
          State.completeFill_of_slot hk ..
        rw [heq] at h
        exact State.exhaust_queue_subset _ h
      | false =>
        have heq : s.fillLost false k = _ := joinFilled_of_slot hk erasedImage 0xFF#8
        rwa [heq] at h
    simpa using hjoined

/-! ### No bound slot stays in the queue (06 R104) -/

/-- No queued slot is a MIGRATE slot bound to the lane. -/
def State.NoneBound (s : State) (l : LaneId) : Prop := ∀ k ∈ s.commitQueue, s.boundTo l k = false

theorem State.NoneBound.step (h : s.NoneBound l) (horigins : OriginsFrom s t)
    (hqueue : ∀ k ∈ t.commitQueue, k ∈ s.commitQueue ∨ s.boundTo l k = false) : t.NoneBound l :=
  fun k hk => horigins.not_boundTo ((hqueue k hk).elim (h k) id)

theorem foldl_discardSlot_queue (ks : List Nat) (s : State) :
    (ks.foldl State.discardSlot s).commitQueue ⊆ s.commitQueue := by
  induction ks generalizing s with
  | nil => exact List.Subset.refl _
  | cons k ks ih =>
    exact List.Subset.trans (ih _) (State.discardSlot_queue s k ▸ List.erase_subset)

theorem foldl_discardSlot_slot (ks : List Nat) (s : State) (hk : k ∈ ks) :
    (ks.foldl State.discardSlot s).slot k = none := by
  induction ks generalizing s with
  | nil => cases hk
  | cons j ks ih =>
    by_cases hj : k ∈ ks
    · exact ih _ hj
    · obtain rfl : k = j := by simpa [hj] using hk
      exact (PoolStep.foldl _ poolStep_discardSlot ks _).origins.free (s.slot_discardSlot_self k)

theorem noneBound_discardBound (s : State) (l : LaneId) : (s.discardBound l).NoneBound l := by
  intro k hk
  have hqueued := foldl_discardSlot_queue _ _ hk
  cases hbound : s.boundTo l k with
  | true =>
    have hgone : (s.discardBound l).slot k = none :=
      foldl_discardSlot_slot _ _ (List.mem_filter.mpr ⟨hqueued, hbound⟩)
    rw [State.boundTo, hgone]
    rfl
  | false => exact (poolStep_discardBound s l).origins.not_boundTo hbound

/-- What a claim told of the loss adds to the queue is the slot of a fill. -/
theorem State.mem_queue_answerLost {held : Bool} {c : Claim} (h : j ∈ (s.answerLost held c).commitQueue) :
    j ∈ s.commitQueue ∨ c.fillSlot = some j := by
  cases c with
  | hostRead b => exact .inl ((readStep_setProgress s b _).queue ▸ h)
  | fillRead k => exact (State.mem_queue_fillLost h).imp id fun e => congrArg some e.symm
  | recordProgram => exact .inl (by simpa [State.answerLost] using h)
  | commit => exact .inl h
  | relocationRead => exact .inl h
  | mark => exact .inl h
  | patrolRead => exact .inl h

/-- Where the waiting fills are not of slots bound to the lane, none that are bound to it join the queue. -/
theorem noneBound_answered {held : Bool} (cs : List Claim) (h : u.NoneBound l)
    (hfills : ∀ c ∈ cs, ∀ k, c.fillSlot = some k → u.boundTo l k = false) :
    (cs.foldl (State.answerLost held) u).NoneBound l := by
  induction cs generalizing u with
  | nil => exact h
  | cons c cs ih =>
    have horigins := (calmStep_answerLost held u c).origins
    exact ih (h.step horigins fun k hk => (State.mem_queue_answerLost hk).imp id (hfills c (.head _) k))
      fun d hd k hk => horigins.not_boundTo (hfills d (.tail _ hd) k hk)

theorem noneBound_judged (h : s.NoneBound l) : s.recompute.exhaust.NoneBound l := by
  refine h.step (calmStep_judged s).origins fun k hk => .inl ?_
  have hqueue : s.recompute.commitQueue = s.commitQueue := by
    unfold State.recompute
    split <;> rfl
  exact hqueue ▸ State.exhaust_queue_subset _ hk

theorem mem_inGrantOrder {x : Lane} {c : Claim} : c ∈ x.inGrantOrder ↔ c ∈ x.claims := by
  cases c <;> simp [Lane.inGrantOrder, Claim.priority]

theorem originsFrom_opEnded (s : State) (l : LaneId) (page : Option Nat) (cause : Nat) :
    OriginsFrom s (s.opEnded l page cause) := (lossStep_opEnded s l page cause).origins

theorem noneBound_loseLane (page : Option Nat) (cause : Nat)
    (h : ∀ c ∈ (s.lane l).claims, ∀ k, c.fillSlot = some k → s.boundTo l k = false) :
    (s.loseLane l page cause).NoneBound l := by
  rw [State.loseLane_eq]
  have horigins := (originsFrom_opEnded s l page cause).trans (poolStep_discardBound _ l).origins
  exact noneBound_judged (noneBound_answered _ (noneBound_discardBound _ l) fun c hc k hk =>
    horigins.not_boundTo (h c (mem_inGrantOrder.mp hc) k hk))

end Sys2Proof.Machine
end

section
/-! PROOFS. The commit or record program a lost lane cuts short: the target released, the slot back at the head of the
queue or discarded, the record command ended with LANE_OFFLINE (05 R91, 06 R104). -/

namespace Sys2Proof.Machine

variable {s t u v : State} {k j i : Nat} {l : LaneId} {sl x : Slot} {page : Option Nat} {cause : Nat}

/-! ### The target of the commit (01 R12, 05 R91) -/

/-- A page released is RETIRED with its mark due, or FREE on its lane's list. -/
theorem State.shelved_release {p : PPage} (n : Nat) (h : p.index < (s.lane p.lane).pages.length) :
    (s.release p n).Shelved p := by
  obtain ⟨hlimit, hbelow, -⟩ := releaseRule.2 s p n h
  by_cases hreached : s.cfg.wearLimit ≤ (s.page p).wear ∨ s.cfg.softLimit ≤ (s.page p).soft
  · obtain ⟨hpage, -, hmark, -⟩ := hlimit hreached
    exact ⟨fun _ => hmark, fun hfree => by simp [hpage] at hfree⟩
  · obtain ⟨hpage, hperm, -⟩ := hbelow hreached
    exact ⟨fun hretired => by simp [hpage] at hretired, fun _ => hperm.mem_iff.mpr (.head _)⟩

theorem State.page_takeOffline (s : State) (l : LaneId) (page : Option Nat) (cause : Nat) (p : PPage) :
    (s.takeOffline l page cause).page p = s.page p := by
  obtain ⟨m, i⟩ := p
  cases m <;> cases l <;> rfl

theorem PagesStay.of_settled (h : Settled s t) : PagesStay s t := by
  refine ⟨fun l => ?_, fun l => ?_, fun p => by rw [h.page], fun p => by rw [h.page]⟩
  all_goals
    obtain ⟨_, _, hlane⟩ := h.lane l
    rw [hlane]

theorem Op.eq_commit {o : Op} {r : Nat × Nat × Nat} (h : o.commitOf = some r) :
    ∃ ph data, o = .commit r.1 ph r.2.1 r.2.2 data := by
  cases o <;> cases h
  exact ⟨_, _, rfl⟩

theorem Op.eq_record {o : Op} {r : Nat × WorkCfg × Nat} (h : o.recordOf = some r) :
    ∃ ph q data, o = .record r.1 ph r.2.1 r.2.2 q data := by
  cases o <;> cases h
  exact ⟨_, _, _, rfl⟩

theorem State.opEnded_of_commit {ph : ProgPhase} {q : Nat} {data : List Byte}
    (hop : (s.lane l).op = some (.commit k ph i q data)) (page : Option Nat) (cause : Nat) :
    s.opEnded l page cause = (s.takeOffline l page cause).loseCommit l k i := by
  simp only [State.opEnded, hop, State.endLostOp]

theorem State.opEnded_of_record {ph : ProgPhase} {q base : Nat} {c : WorkCfg} {data : List Byte}
    (hop : (s.lane l).op = some (.record i ph c base q data)) (page : Option Nat) (cause : Nat) :
    s.opEnded l page cause =
      (s.takeOffline l page cause).finishLong 1 (if (s.lane l).awaitReady then none else some i) := by
  simp only [State.opEnded, hop, State.endLostOp]
  cases (s.lane l).awaitReady <;> rfl

/-- The target of a commit cut short ends as its release leaves it. -/
theorem target_released (hsl : s.slot k = some sl) (hi : i < (s.lane l).pages.length)
    (hended : s.opEnded l page cause = (s.takeOffline l page cause).loseCommit l k i)
    (hstay : PagesStay (s.opEnded l page cause) t) :
    (t.page { lane := l, index := i }).state = (s.released (s.page { lane := l, index := i })).state ∧
    (t.page { lane := l, index := i }).wear = (s.page { lane := l, index := i }).wear ∧
    t.Shelved { lane := l, index := i } := by
  have hpages : i < ((s.takeOffline l page cause).lane l).pages.length := by rwa [State.lane_takeOffline]
  have hself := State.page_release_self (p := { lane := l, index := i }) sl.page hpages
  have hshelved := State.shelved_release (p := { lane := l, index := i }) sl.page hpages
  have hlost := poolStep_loseCommit (s := s.takeOffline l page cause) hsl l i
  have hstay' : PagesStay _ t := hlost.calm.pages.trans (hended ▸ hstay)
  rw [State.page_takeOffline] at hself
  exact ⟨(hstay'.state _).trans (by rw [hself]; rfl), (hstay'.wear _).trans (by rw [hself]), hstay'.shelved hshelved⟩

/-! ### The slot of the commit (05 R91) -/

/-- Slot k holds the slot given and stands at the head of the queue. -/
def State.AtHead (s : State) (k : Nat) (x : Slot) : Prop := s.slot k = some x ∧ s.commitQueue.head? = some k

theorem State.AtHead.of_same (h : s.AtHead k x) (hslots : t.slots = s.slots) (hqueue : t.commitQueue = s.commitQueue) :
    t.AtHead k x := by
  obtain ⟨hslot, hhead⟩ := h
  exact ⟨by rwa [State.slot, hslots], by rwa [hqueue]⟩

theorem State.AtHead.append {q : List Nat} (h : s.AtHead k x) (hslot : t.slot k = s.slot k)
    (hqueue : t.commitQueue = s.commitQueue ++ q) : t.AtHead k x := by
  obtain ⟨hbefore, hhead⟩ := h
  refine ⟨hslot.trans hbefore, ?_⟩
  rw [hqueue, List.head?_append, hhead]
  rfl

theorem State.AtHead.discardSlot (h : s.AtHead k x) (hj : j ≠ k) : (s.discardSlot j).AtHead k x := by
  obtain ⟨hslot, hhead⟩ := h
  refine ⟨(State.slot_discardSlot_of_ne hj.symm).trans hslot, ?_⟩
  obtain ⟨ks, hks⟩ := List.head?_eq_some_iff.mp hhead
  rw [State.discardSlot_queue, hks, List.erase_cons_tail (by simpa using hj.symm)]
  rfl

theorem foldl_keeps {α : Type} {f : State → α → State} {xs : List α} {I : State → Prop}
    (hI : ∀ u, ∀ d ∈ xs, I u → I (f u d)) (h : I s) : I (xs.foldl f s) := by
  induction xs generalizing s with
  | nil => exact h
  | cons a xs ih => exact ih (fun u d hd => hI u d (.tail _ hd)) (hI s a (.head _) h)

/-- What each discard of a slot bound to the lane keeps, all of them keep. -/
theorem discardBound_keeps (I : State → Prop) (hI : ∀ u j, s.boundTo l j = true → I u → I (u.discardSlot j)) (h : I s) :
    I (s.discardBound l) :=
  foldl_keeps (fun u j hj => hI u j (List.mem_filter.mp hj).2) h

theorem State.fillLost_joins (hk : s.slot k = some sl) :
    s.fillLost false k =
      { s with slots := s.slots.set k (some (sl.filled erasedImage 0xFF#8)), commitQueue := s.commitQueue ++ [k] } :=
  joinFilled_of_slot hk ..

theorem State.fillLost_of_free (hk : s.slot k = none) (held : Bool) : s.fillLost held k = s := by
  simp only [State.fillLost, State.fillWithoutSource, State.completeFill, State.joinFilled, hk, ite_self]

theorem State.slot_fillLost_of_ne (h : k ≠ j) : (s.fillLost false j).slot k = s.slot k := by
  cases hj : s.slot j with
  | none => rw [State.fillLost_of_free hj]
  | some y => rw [State.fillLost_joins hj]; exact State.slot_set_of_ne (o := some _) rfl h

theorem State.fillLost_queue (s : State) (j : Nat) : ∃ q, (s.fillLost false j).commitQueue = s.commitQueue ++ q := by
  cases hj : s.slot j with
  | none => exact ⟨[], by rw [State.fillLost_of_free hj, List.append_nil]⟩
  | some y => exact ⟨[j], by rw [State.fillLost_joins hj]⟩

theorem State.AtHead.answerLost (h : s.AtHead k x) {c : Claim} (hc : c ≠ .fillRead k) :
    (s.answerLost false c).AtHead k x := by
  cases c with
  | hostRead b =>
    have hstep := readStep_setProgress s b (.failed .laneOffline)
    exact h.of_same hstep.slots hstep.queue
  | fillRead j =>
    obtain ⟨q, hqueue⟩ := s.fillLost_queue j
    exact h.append (State.slot_fillLost_of_ne fun e => hc (e ▸ rfl)) hqueue
  | recordProgram => exact h.of_same (by simp [State.answerLost]) (by simp [State.answerLost])
  | commit => exact h
  | relocationRead => exact h
  | mark => exact h
  | patrolRead => exact h.of_same rfl rfl

/-- While the space state after the loss is not EXHAUSTED the judgement at its end drops nothing (06 R106). -/
theorem State.loseLane_of_space (h : (s.loseLane l page cause).space ≠ .exhausted) :
    s.loseLane l page cause = (s.readersTold l page cause).recompute := by
  rw [State.loseLane_eq] at h ⊢
  refine State.exhaust_of_not (State.exhaustion_of_space ?_)
  rwa [← (poolOnly_exhaust _).space]

theorem State.recompute_frame (s : State) : ∃ space notices dropped faults,
    s.recompute = { s with space := space, notices := notices, dropped := dropped, faults := faults } := by
  unfold State.recompute
  split
  · exact ⟨_, _, _, _, rfl⟩
  · exact ⟨_, _, _, _, rfl⟩

theorem State.exhaustion_of_committing (h : (s.lane l).committing = true) : s.exhaustion = false := by
  cases l
  · simp_all [State.exhaustion]
  · simp_all [State.exhaustion]

/-- The slot of a commit cut short stands SEALED at the head of the queue. -/
theorem commit_returns {ph : ProgPhase} {q : Nat} {data : List Byte}
    (hop : (s.lane l).op = some (.commit k ph i q data)) (hsl : s.slot k = some sl)
    (horigin : sl.origin.targetLane = none) (hfill : .fillRead k ∉ (s.lane l).claims)
    (hspace : (s.loseLane l page cause).space ≠ .exhausted) : (s.loseLane l page cause).AtHead k sl.resealed := by
  have hexh : s.exhaustion = false := State.exhaustion_of_committing (l := l) (by simp [Lane.committing, hop])
  have hended := State.opEnded_of_commit hop page cause
  have hback : (s.opEnded l page cause).AtHead k sl.resealed := by
    rw [hended, State.loseCommit_of_kept (s := s.takeOffline l page cause) hsl horigin]
    refine ⟨State.slot_set_self (s := (s.takeOffline l page cause).release { lane := l, index := i } sl.page)
      (o := some sl.resealed) rfl ?_, rfl⟩
    rw [State.release_slots]
    exact State.lt_of_slot hsl
  have hunbound : (s.opEnded l page cause).boundTo l k = false := by
    simp only [State.boundTo, hback.1, Option.any_some]
    cases ho : sl.origin <;> simp_all [Slot.resealed, Origin.targetLane]
  have hother : ∀ j, (s.opEnded l page cause).boundTo l j = true → j ≠ k := fun j hj e => by
    simp [e, hunbound] at hj
  have hdiscarded : ((s.opEnded l page cause).discardBound l).AtHead k sl.resealed :=
    discardBound_keeps (·.AtHead k sl.resealed) (fun u j hj h => h.discardSlot (hother j hj)) hback
  have htold : (s.readersTold l page cause).AtHead k sl.resealed := by
    unfold State.readersTold
    rw [hexh]
    refine foldl_keeps (I := (·.AtHead k sl.resealed)) (fun u c hc h => h.answerLost fun e => hfill ?_) hdiscarded
    exact e ▸ mem_inGrantOrder.mp hc
  rw [State.loseLane_of_space hspace]
  obtain ⟨_, _, _, _, hframe⟩ := (s.readersTold l page cause).recompute_frame
  exact htold.of_same (by rw [hframe]) (by rw [hframe])

/-- The slot of a MIGRATE commit cut short is FREE. -/
theorem migrate_discarded {ph : ProgPhase} {q : Nat} {data : List Byte}
    (hop : (s.lane l).op = some (.commit k ph i q data)) (hsl : s.slot k = some sl)
    (horigin : sl.origin.targetLane.isSome = true) : (s.loseLane l page cause).slot k = none := by
  refine (calmStep_loseLane s l page cause).origins.free ?_
  rw [State.opEnded_of_commit hop, State.loseCommit_of_migrate (s := s.takeOffline l page cause) hsl horigin]
  exact State.slot_freeSlot_self ..

/-! ### The record program (06 R104) -/

theorem getElem?_of_prefixed {α : Type} {xs ys : List α} {n : Nat} {a : α} (h : xs <+: ys) (ha : xs[n]? = some a) :
    ys[n]? = some a := by
  obtain ⟨hlt, rfl⟩ := List.getElem?_eq_some_iff.mp ha
  exact List.prefix_iff_getElem?.mp h n hlt

theorem State.finishLong_longCmd_none (s : State) (r : Nat) (p : Option Nat) : (s.finishLong r p).longCmd = none := by
  cases h : s.longCmd with
  | none => simp only [State.finishLong, h]
  | some c => simp only [State.finishLong, h]; rfl

/-- The long command of a record program cut short ends with LANE_OFFLINE, its notice the second given. -/
theorem record_ended {ph : ProgPhase} {q base : Nat} {cfg : WorkCfg} {data : List Byte}
    (hop : (s.lane l).op = some (.record i ph cfg base q data)) {c : LongCmd} (hlong : s.longCmd = some c) :
    (s.loseLane l page cause).longCmd = none ∧
    (s.notices.length + 1 < 32 → (s.loseLane l page cause).notices[s.notices.length + 1]? =
      some (s.doneBy c 1 (if (s.lane l).awaitReady then none else some i))) := by
  have hended := State.opEnded_of_record hop page cause
  have hcalm := calmStep_loseLane s l page cause
  refine ⟨hcalm.long (hended ▸ State.finishLong_longCmd_none ..), fun hroom => getElem?_of_prefixed hcalm.given ?_⟩
  have hfirst := State.notices_takeOffline (s := s) (by omega) l page cause
  have hroom' : (s.takeOffline l page cause).notices.length < 32 := by
    rw [hfirst, List.length_append]
    exact hroom
  rw [hended, State.finishLong_eq (s := s.takeOffline l page cause) hlong hroom', State.doneNotice_eq]
  dsimp only
  rw [hfirst, List.getElem?_append_right (by simp)]
  simp only [List.length_append, List.length_singleton, Nat.sub_self, List.getElem?_cons_zero]
  rfl

/-- Both together (05 R91, 06 R104). -/
theorem opLost_of_settled (h : Settled (s.loseLane l page cause) t) : t.OpLost s l := by
  intro o hop
  refine ⟨fun r hr sl hsl => ?_, fun r hr c hlong => ?_⟩
  · obtain ⟨ph, data, rfl⟩ := Op.eq_commit hr
    refine ⟨fun hi => ?_, fun horigin => ?_, fun horigin hfill hspace => ?_⟩
    · exact target_released hsl hi (State.opEnded_of_commit hop page cause)
        ((calmStep_loseLane ..).pages.trans (.of_settled h))
    · exact (h.slot _).trans (migrate_discarded hop hsl horigin)
    · have hlost : (s.loseLane l page cause).space ≠ .exhausted := (poolEnds_of_settled (.refl _) h).space ▸ hspace
      obtain ⟨hslot, hhead⟩ := commit_returns hop hsl horigin hfill hlost
      exact ⟨(h.slot _).trans hslot, h.queue ▸ hhead⟩
  · obtain ⟨ph, q, data, rfl⟩ := Op.eq_record hr
    rw [h.longCmd, h.notices]
    exact record_ended hop hlong

end Sys2Proof.Machine
end

section
/-! PROOFS. The reads and the record program that end with a lost lane: the claim whose operation held the lane and
those that waited are told of the loss, each in its turn (06 R104, R105). -/

namespace Sys2Proof.Machine

variable {s t u v : State} {k j i : Nat} {l : LaneId} {sl x : Slot} {page : Option Nat} {cause : Nat} {b : Bool}
variable {c : LongCmd}

/-! ### Every claim is told in its turn -/

/-- A step that takes P to J is reached in a run whose steps keep P, and J once it holds. -/
theorem foldl_reaches {α : Type} {f : State → α → State} {a : α} {xs : List α} {P J : State → Prop}
    (hP : ∀ u, ∀ d ∈ xs, P u → P (f u d)) (hJ : ∀ u, ∀ d ∈ xs, J u → J (f u d)) (hgo : ∀ u, P u → J (f u a))
    (ha : a ∈ xs) (h : P s) : J (xs.foldl f s) := by
  induction xs generalizing s with
  | nil => cases ha
  | cons d xs ih =>
    have hJtail : ∀ u, ∀ e ∈ xs, J u → J (f u e) := fun u e he => hJ u e (.tail _ he)
    rcases List.mem_cons.mp ha with rfl | htail
    · exact foldl_keeps (s := f s _) hJtail (hgo s h)
    · exact ih (fun u d hd => hP u d (.tail _ hd)) hJtail htail (hP s d (.head _) h)

theorem State.endLostOp_of_readClaim {o : Op} {c : Claim} (h : o.readClaim = some c) (s : State) (l : LaneId)
    (started held : Bool) : s.endLostOp l (some o) started held = s.answerLost held c := by
  cases o with
  | read r n m q => cases r <;> cases h <;> rfl
  | commit => cases h
  | record => cases h
  | mark => cases h

theorem State.opEnded_of_readClaim {o : Op} {c : Claim} (hop : (s.lane l).op = some o) (h : o.readClaim = some c) :
    s.opEnded l page cause = (s.takeOffline l page cause).answerLost s.exhaustion c := by
  rw [State.opEnded, hop, State.endLostOp_of_readClaim h]

/-- A claim that the loss ends is the operation's own or waits. -/
theorem Lane.mem_readsEnding {x : Lane} {c : Claim} (h : c ∈ x.readsEnding) :
    (∃ o, x.op = some o ∧ o.readClaim = some c) ∨ c ∈ x.inGrantOrder := by
  rcases List.mem_append.mp h with hop | hwaits
  · obtain ⟨o, ho, hc⟩ := Option.bind_eq_some_iff.mp (Option.mem_toList.mp hop)
    exact .inl ⟨o, ho, hc⟩
  · exact .inr (mem_inGrantOrder.mpr hwaits)

/-- A claim that the loss ends is told of it, with its operation or in the order of the claims; what it then leaves
stands until the space state is judged. -/
theorem readersTold_reaches {a : Claim} {P J : State → Prop} (ha : a ∈ (s.lane l).readsEnding)
    (hstart : P (s.takeOffline l page cause)) (hop : P (s.opEnded l page cause))
    (hPdiscard : P (s.opEnded l page cause) → P ((s.opEnded l page cause).discardBound l))
    (hJdiscard : J (s.opEnded l page cause) → J ((s.opEnded l page cause).discardBound l))
    (hP : ∀ u d, P u → P (u.answerLost s.exhaustion d)) (hJ : ∀ u d, J u → J (u.answerLost s.exhaustion d))
    (hgo : ∀ u, P u → J (u.answerLost s.exhaustion a)) : J (s.readersTold l page cause) := by
  rcases Lane.mem_readsEnding ha with ⟨o, ho, hclaim⟩ | hwaits
  · exact foldl_keeps (fun u d _ => hJ u d) (hJdiscard (State.opEnded_of_readClaim ho hclaim ▸ hgo _ hstart))
  · exact foldl_reaches (fun u d _ => hP u d) (fun u d _ => hJ u d) hgo hwaits (hPdiscard hop)

/-! ### The patrol read (06 R104) -/

theorem patrol_ended (h : .patrolRead ∈ (s.lane l).readsEnding) : (s.loseLane l page cause).patrolRead = none := by
  have htold : (s.readersTold l page cause).patrolRead = none :=
    readersTold_reaches (P := fun _ => True) (J := fun u => u.patrolRead = none) h trivial trivial (fun _ => trivial)
      (poolStep_discardBound _ l).calm.patrol (fun _ _ _ => trivial) (fun u d => (calmStep_answerLost _ u d).patrol)
      fun _ _ => rfl
  exact (calmStep_judged _).patrol htold

/-! ### The fill (02 R39, 06 R104, R105) -/

/-- The slot as a fill without a source leaves it (02 R39). -/
def Slot.unsourced (sl : Slot) : Slot := sl.filled erasedImage 0xFF#8

/-- Slot k holds a host slot that a fill without a source makes the slot given. -/
def State.FillsTo (s : State) (k : Nat) (x : Slot) : Prop :=
  ∃ sl, s.slot k = some sl ∧ sl.origin = .host ∧ sl.unsourced = x

/-- Slot k is filled and queued. -/
def State.Filled (s : State) (k : Nat) (x : Slot) : Prop := s.slot k = some x ∧ k ∈ s.commitQueue

theorem State.FillsTo.of_slot (h : s.FillsTo k x) (hslot : t.slot k = s.slot k) : t.FillsTo k x := by
  obtain ⟨sl, hsl, horigin, hx⟩ := h
  exact ⟨sl, hslot.trans hsl, horigin, hx⟩

theorem State.FillsTo.not_bound (h : s.FillsTo k x) (l : LaneId) : s.boundTo l k = false := by
  obtain ⟨sl, hsl, horigin, -⟩ := h
  simp [State.boundTo, hsl, horigin]

theorem Slot.coveredMask_of_full (h : sl.full = true) : sl.coveredMask = 0xFF#8 := by
  refine BitVec.eq_of_getLsbD_eq fun i hi => ?_
  have hones : (0xFF#8).getLsbD i = true := by
    have : ∀ j : Fin 8, (0xFF#8).getLsbD j = true := by decide
    exact this ⟨i, hi⟩
  rw [Slot.getLsbD_coveredMask _ hi, hones]
  exact List.all_eq_true.mpr fun c hc => List.all_eq_true.mp h c (List.mem_of_mem_drop (List.mem_of_mem_take hc))

/-- A fill without a source fills no slot twice. -/
theorem Slot.unsourced_unsourced (sl : Slot) : sl.unsourced.unsourced = sl.unsourced := by
  have hmask := Slot.coveredMask_of_full (sl.full_filled erasedImage 0xFF#8)
  have hcells : (sl.unsourced.filled erasedImage 0xFF#8).cells = sl.unsourced.cells := by
    refine List.ext_getElem? fun i => ?_
    rw [Slot.getElem?_filled, Slot.unsourced, Slot.getElem?_filled]
    cases sl.cells[i]? <;> cases erasedImage[i]? <;> rfl
  have hpoison : (sl.unsourced.filled erasedImage 0xFF#8).poison = sl.unsourced.poison := by
    change sl.unsourced.poison ||| (0xFF#8 &&& ~~~ sl.unsourced.coveredMask) = _
    rw [Slot.unsourced, hmask]
    simp
  change { sl.unsourced with
    cells := (sl.unsourced.filled erasedImage 0xFF#8).cells
    poison := (sl.unsourced.filled erasedImage 0xFF#8).poison
    phase := .sealed } = sl.unsourced
  rw [hcells, hpoison]
  rfl

theorem State.slot_fillLost_self (hk : s.slot k = some sl) : (s.fillLost false k).slot k = some sl.unsourced := by
  rw [State.fillLost_joins hk]
  exact State.slot_set_self (o := some sl.unsourced) rfl (State.lt_of_slot hk)

/-- The slot told of the loss is filled and queued. -/
theorem State.FillsTo.filled (h : s.FillsTo k x) : (s.fillLost false k).Filled k x := by
  obtain ⟨sl, hsl, -, rfl⟩ := h
  refine ⟨State.slot_fillLost_self hsl, ?_⟩
  rw [State.fillLost_joins hsl]
  exact List.mem_append_right _ (.head _)

theorem State.FillsTo.fillLost (h : s.FillsTo k x) (j : Nat) : (s.fillLost false j).FillsTo k x := by
  by_cases hj : k = j
  · subst hj
    obtain ⟨sl, hsl, horigin, rfl⟩ := h
    exact ⟨sl.unsourced, State.slot_fillLost_self hsl, horigin, sl.unsourced_unsourced⟩
  · exact h.of_slot (State.slot_fillLost_of_ne hj)

theorem State.FillsTo.answerLost (h : s.FillsTo k x) (d : Claim) : (s.answerLost false d).FillsTo k x := by
  cases d with
  | hostRead b =>
    exact h.of_slot (congrArg (fun ss => (ss[k]?).join) (readStep_setProgress s b (.failed .laneOffline)).slots)
  | fillRead j => exact h.fillLost j
  | recordProgram => exact h.of_slot (by simp [State.answerLost, State.slot])
  | commit => exact h
  | relocationRead => exact h
  | mark => exact h
  | patrolRead => exact h.of_slot rfl

theorem State.Filled.answerLost (hx : x.unsourced = x) (h : s.Filled k x) (d : Claim) :
    (s.answerLost false d).Filled k x := by
  obtain ⟨hslot, hmem⟩ := h
  cases d with
  | hostRead b =>
    have hstep := readStep_setProgress s b (.failed .laneOffline)
    exact ⟨(congrArg (fun ss => (ss[k]?).join) hstep.slots).trans hslot, hstep.queue.symm ▸ hmem⟩
  | fillRead j =>
    obtain ⟨q, hqueue⟩ := s.fillLost_queue j
    refine ⟨?_, hqueue ▸ List.mem_append_left _ hmem⟩
    by_cases hj : k = j
    · subst hj
      exact (State.slot_fillLost_self hslot).trans (congrArg some hx)
    · exact (State.slot_fillLost_of_ne hj).trans hslot
  | recordProgram => exact ⟨by simpa [State.answerLost, State.slot] using hslot, by simpa [State.answerLost] using hmem⟩
  | commit => exact ⟨hslot, hmem⟩
  | relocationRead => exact ⟨hslot, hmem⟩
  | mark => exact ⟨hslot, hmem⟩
  | patrolRead => exact ⟨hslot, hmem⟩

theorem State.FillsTo.loseCommit (h : s.FillsTo k x) (l : LaneId) (j i : Nat) : (s.loseCommit l j i).FillsTo k x := by
  cases hj : s.slot j with
  | none => rwa [State.loseCommit_of_free hj]
  | some y =>
    have hrelease : (s.release { lane := l, index := i } y.page).FillsTo k x :=
      h.of_slot (by rw [State.slot, State.release_slots]; rfl)
    cases horigin : y.origin.targetLane with
    | none =>
      rw [State.loseCommit_of_kept hj horigin]
      by_cases hne : k = j
      · subst hne
        obtain ⟨sl, hsl, hhost, hx⟩ := h
        obtain rfl := Option.some.inj (hj.symm.trans hsl)
        refine ⟨y.resealed, State.slot_set_self (o := some y.resealed) rfl ?_, hhost, hx⟩
        rw [State.release_slots]
        exact State.lt_of_slot hj
      · exact hrelease.of_slot (State.slot_set_of_ne (o := some y.resealed) rfl hne)
    | some m =>
      rw [State.loseCommit_of_migrate hj (by rw [horigin]; rfl)]
      refine hrelease.of_slot (State.slot_freeSlot_of_ne _ fun hne => ?_)
      obtain ⟨sl, hsl, hhost, -⟩ := h
      obtain rfl := Option.some.inj (hj.symm.trans (hne ▸ hsl))
      simp [hhost, Origin.targetLane] at horigin

theorem State.FillsTo.endLostOp (h : s.FillsTo k x) (l : LaneId) (op : Option Op) (started : Bool) :
    (s.endLostOp l op started false).FillsTo k x := by
  match op with
  | none => exact h
  | some (.read (.host b) _ _ _) => exact h.answerLost (.hostRead b)
  | some (.read (.fill j) _ _ _) => exact h.answerLost (.fillRead j)
  | some (.read .patrol _ _ _) => exact h.answerLost .patrolRead
  | some (.read .relocation n m _) =>
    exact h.of_slot (congrArg (fun ss => (ss[k]?).join) (readStep_dropRelocHead s n { lane := l, index := m }).slots)
  | some (.commit j _ m _ _) => exact h.loseCommit l j m
  | some (.record _ _ _ _ _ _) => exact h.of_slot (by simp [State.endLostOp, State.slot])
  | some (.mark _ _) => exact h

/-- A lost fill takes no source and its slot joins the queue. -/
theorem fill_ended (h : .fillRead k ∈ (s.lane l).readsEnding) (hsl : s.slot k = some sl) (horigin : sl.origin = .host)
    (hexh : s.exhaustion = false) (hspace : (s.loseLane l page cause).space ≠ .exhausted) :
    (s.loseLane l page cause).Filled k sl.unsourced := by
  have hstart : (s.takeOffline l page cause).FillsTo k sl.unsourced := ⟨sl, hsl, horigin, rfl⟩
  have hended : (s.opEnded l page cause).FillsTo k sl.unsourced := by
    rw [State.opEnded, hexh]
    exact hstart.endLostOp ..
  have hbound : ∀ j, (s.opEnded l page cause).boundTo l j = true → k ≠ j := fun j hj hne => by
    rw [← hne, hended.not_bound l] at hj
    cases hj
  have htold : (s.readersTold l page cause).Filled k sl.unsourced := by
    refine readersTold_reaches (P := (·.FillsTo k sl.unsourced)) (J := (·.Filled k sl.unsourced)) h hstart hended
      ?_ ?_ ?_ ?_ ?_
    · exact discardBound_keeps (·.FillsTo k sl.unsourced) fun u j hj hu =>
        hu.of_slot (State.slot_discardSlot_of_ne (hbound j hj))
    · refine discardBound_keeps (·.Filled k sl.unsourced) fun u j hj hu => ?_
      refine ⟨(State.slot_discardSlot_of_ne (hbound j hj)).trans hu.1, ?_⟩
      rw [State.discardSlot_queue]
      exact (List.mem_erase_of_ne (hbound j hj)).mpr hu.2
    · exact hexh ▸ fun u d hu => hu.answerLost d
    · exact hexh ▸ fun u d hu => hu.answerLost sl.unsourced_unsourced d
    · exact hexh ▸ fun u hu => hu.filled
  rw [State.loseLane_of_space hspace]
  obtain ⟨_, _, _, _, hframe⟩ := (s.readersTold l page cause).recompute_frame
  rw [hframe]
  exact htold

/-! ### The waiting record program (06 R105, 11 R163) -/

/-- The long command has ended with the notice given, where there was room for it. -/
def State.RecordEnded (s : State) (n : Notice) : Prop :=
  s.longCmd = none ∧ (s.notices.length < 32 → n ∈ s.notices)

theorem State.RecordEnded.step {n : Notice} (h : s.RecordEnded n) (hstep : CalmStep s t) : t.RecordEnded n := by
  obtain ⟨hlong, hnotice⟩ := h
  exact ⟨hstep.long hlong, fun hroom => hstep.given.subset (hnotice (Nat.lt_of_le_of_lt hstep.given.length_le hroom))⟩

theorem State.finishLong_records {cfg : WorkCfg} (hlong : s.longCmd = some c) (hcfg : s.cfg = cfg) (r : Nat)
    (p : Option Nat) (u : State) (hu : u.cfg = cfg) : (s.finishLong r p).RecordEnded (u.doneBy c r p) := by
  have hsame : u.doneBy c r p = s.doneNotice c r p := by
    rw [State.doneNotice_eq, State.doneBy, State.doneBy, hcfg, hu]
  refine ⟨State.finishLong_longCmd_none .., fun hroom => ?_⟩
  have hbefore : s.notices.length < 32 :=
    Nat.lt_of_le_of_lt (keeps_finishLong s r p).given.length_le hroom
  rw [State.finishLong_eq hlong hbefore, hsame]
  exact List.mem_append_right _ (.head _)

/-- A pending record command, with its configuration, before it is told of the loss. -/
def State.Recording (s : State) (c : LongCmd) (cfg : WorkCfg) : Prop := s.longCmd = some c ∧ s.cfg = cfg

theorem State.command_answerLost (hc : c.recording = true) (hlong : s.longCmd = some c) (held : Bool) {d : Claim}
    (hd : d ≠ .recordProgram) : (s.answerLost held d).longCmd = some c := by
  cases d with
  | hostRead b => exact (readStep_setProgress s b _).command.trans hlong
  | fillRead j => exact (poolStep_fillLost s held j).recording c hc hlong
  | recordProgram => exact absurd rfl hd
  | commit => exact hlong
  | relocationRead => exact hlong
  | mark => exact hlong
  | patrolRead => exact hlong

theorem State.command_endLostOp (hc : c.recording = true) (hlong : s.longCmd = some c) (l : LaneId) {op : Option Op}
    (hop : op.bind Op.recordOf = none) (started held : Bool) : (s.endLostOp l op started held).longCmd = some c := by
  match op, hop with
  | none, _ => exact hlong
  | some (.read (.host b) _ _ _), _ => exact State.command_answerLost (d := .hostRead b) hc hlong held nofun
  | some (.read (.fill j) _ _ _), _ => exact State.command_answerLost (d := .fillRead j) hc hlong held nofun
  | some (.read .patrol _ _ _), _ => exact hlong
  | some (.read .relocation n m _), _ =>
    exact (readStep_dropRelocHead s n { lane := l, index := m }).command.trans hlong
  | some (.commit j _ m _ _), _ =>
    change (s.loseCommit l j m).longCmd = some c
    cases hj : s.slot j with
    | none => rwa [State.loseCommit_of_free hj]
    | some y =>
      refine (poolStep_loseCommit hj l m).recording c hc ?_
      obtain ⟨_, _, _, _, _, _, _, heq⟩ := mapOnly_release s { lane := l, index := m } y.page
      rw [heq]
      exact hlong
  | some (.mark _ _), _ => exact hlong

/-- The long command of a waiting record program ends with LANE_OFFLINE. -/
theorem recordProgram_ended (h : .recordProgram ∈ (s.lane l).claims) (hlong : s.longCmd = some c)
    (hc : c.recording = true) :
    (s.loseLane l page cause).longCmd = none ∧
    ((s.lane l).op.bind Op.recordOf = none → (s.loseLane l page cause).notices.length < 32 →
      s.doneBy c 1 none ∈ (s.loseLane l page cause).notices) := by
  have hends : .recordProgram ∈ (s.lane l).readsEnding := List.mem_append_right _ h
  have hgone : (s.readersTold l page cause).longCmd = none :=
    readersTold_reaches (P := fun _ => True) (J := fun u => u.longCmd = none) hends trivial trivial (fun _ => trivial)
      (poolStep_discardBound _ l).calm.long (fun _ _ _ => trivial) (fun u d => (calmStep_answerLost _ u d).long)
      fun _ _ => State.finishLong_longCmd_none ..
  refine ⟨(calmStep_judged _).long hgone, fun hop => ?_⟩
  have hstart : (s.takeOffline l page cause).Recording c s.cfg := ⟨hlong, rfl⟩
  have hended : (s.opEnded l page cause).Recording c s.cfg :=
    ⟨State.command_endLostOp (s := s.takeOffline l page cause) hc hlong l hop _ _, (keeps_endLostOp ..).cfg⟩
  have hgo : ∀ u : State, u.Recording c s.cfg ∨ u.RecordEnded (s.doneBy c 1 none) →
      (u.answerLost s.exhaustion .recordProgram).RecordEnded (s.doneBy c 1 none) := by
    rintro u (⟨hu, hcfg⟩ | hdone)
    · exact State.finishLong_records hu hcfg _ _ s rfl
    · exact hdone.step (calmStep_answerLost ..)
  have htold : (s.readersTold l page cause).RecordEnded (s.doneBy c 1 none) := by
    refine readersTold_reaches (P := fun u => u.Recording c s.cfg ∨ u.RecordEnded (s.doneBy c 1 none))
      (J := (·.RecordEnded (s.doneBy c 1 none))) hends (.inl hstart) (.inl hended) ?_
      (fun hJ => hJ.step (poolStep_discardBound ..).calm) ?_ (fun u d hJ => hJ.step (calmStep_answerLost ..)) hgo
    · rintro (⟨hu, hcfg⟩ | hdone)
      · exact .inl ⟨(poolStep_discardBound ..).recording c hc hu, (keeps_discardBound ..).cfg.trans hcfg⟩
      · exact .inr (hdone.step (poolStep_discardBound ..).calm)
    · rintro u d (⟨hu, hcfg⟩ | hdone)
      · by_cases hd : d = .recordProgram
        · exact .inr (hd ▸ hgo u (.inl ⟨hu, hcfg⟩))
        · exact .inl ⟨State.command_answerLost hc hu _ hd, (keeps_answerLost ..).cfg.trans hcfg⟩
      · exact .inr (hdone.step (calmStep_answerLost ..))
  exact (htold.step (calmStep_judged _)).2

end Sys2Proof.Machine
end

section
/-! PROOFS. The host read that a lost lane ends: a page told of the loss answers the read, unless its other page is
still being read on a lane; nothing else in the loss touches the port (03 R62, 06 R104, R105). -/

namespace Sys2Proof.Machine

variable {s t u : State} {k j i : Nat} {l : LaneId} {b : Bool} {rp : ReadPage} {other : Option ReadPage}
variable {page : Option Nat} {cause : Nat} {answers : List HostAnswer}

/-! ### The port beside the read (02 R45) -/

/-- A port that holds no answer is as it was. -/
def PortStays (s t : State) : Prop :=
  (∀ ks failed, s.port ≠ .holding ks failed) → t.port = s.port ∧ t.answers = s.answers

theorem PortStays.of_same (hport : t.port = s.port) (hanswers : t.answers = s.answers) : PortStays s t :=
  fun _ => ⟨hport, hanswers⟩

theorem portStays_finishLong (s : State) (r : Nat) (p : Option Nat) : PortStays s (s.finishLong r p) :=
  .of_same (by simp) (by simp)

theorem portStays_dropRelocHead (s : State) (n : Nat) (p : PPage) : PortStays s (s.dropRelocHead n p) := by
  unfold State.dropRelocHead
  split <;> exact .of_same rfl rfl

theorem portStays_loseCommit (s : State) (l : LaneId) (k i : Nat) : PortStays s (s.loseCommit l k i) := by
  cases hk : s.slot k with
  | none => rw [State.loseCommit_of_free hk]; exact .of_same rfl rfl
  | some sl =>
    have hpool := (poolStep_loseCommit hk l i).port
    obtain ⟨_, _, _, _, _, _, _, heq⟩ := mapOnly_release s { lane := l, index := i } sl.page
    rw [heq] at hpool
    exact hpool

theorem portStays_answerLost (s : State) (held : Bool) {d : Claim} (hd : ∀ b, d ≠ .hostRead b) :
    PortStays s (s.answerLost held d) := by
  cases d with
  | hostRead b => exact absurd rfl (hd b)
  | fillRead k => exact (poolStep_fillLost s held k).port
  | recordProgram => exact portStays_finishLong s _ _
  | commit => exact .of_same rfl rfl
  | relocationRead => exact .of_same rfl rfl
  | mark => exact .of_same rfl rfl
  | patrolRead => exact .of_same rfl rfl

/-! ### The answer of a read (03 R61, R62, 07 R120) -/

theorem portStays_pageRequest (s : State) (rp : ReadPage) : PortStays s (s.pageRequest rp) := by
  have hsoft : ∀ (u : State) (p : PPage), (u.softened p).port = u.port ∧ (u.softened p).answers = u.answers := by
    intro u p
    unfold State.softened
    split <;> exact ⟨rfl, rfl⟩
  unfold State.pageRequest
  split
  · rw [State.relocRequest_eq]
    split
    · obtain ⟨hport, hanswers⟩ := hsoft s ‹_›
      exact .of_same hport hanswers
    · exact .of_same rfl rfl
  · exact .of_same rfl rfl

/-- The read has been answered FAULT LANE_OFFLINE. -/
def State.AnsweredOffline (s : State) (answers : List HostAnswer) : Prop :=
  s.port = .idle ∧ s.answers = answers ++ [.fault .laneOffline]

theorem State.AnsweredOffline.stays (h : s.AnsweredOffline answers) (hstays : PortStays s t) :
    t.AnsweredOffline answers := by
  obtain ⟨hport, hanswers⟩ := h
  obtain ⟨gport, ganswers⟩ := hstays (by simp [hport])
  exact ⟨gport.trans hport, ganswers.trans hanswers⟩

theorem answeredOffline_requests (ps : List ReadPage) (h : s.AnsweredOffline answers) :
    (ps.foldl State.pageRequest s).AnsweredOffline answers :=
  foldl_keeps (I := (·.AnsweredOffline answers)) (fun u rp _ hu => hu.stays (portStays_pageRequest u rp)) h

theorem State.withdrawHostReads_answers (s : State) : s.withdrawHostReads.answers = s.answers := by
  obtain ⟨_, _, heq⟩ := s.withdrawHostReads_eq
  rw [heq]

/-- A read one of whose pages has failed with LANE_OFFLINE is answered so when none is still being read. -/
theorem advanceRead_answers {ps : List ReadPage} (hfailed : ps.any (·.failedWith .laneOffline) = true)
    (hclosed : ps.any ReadPage.onLane = false) : (s.advanceRead ps).AnsweredOffline s.answers := by
  have hfailing : ps.any ReadPage.failed = true := by
    obtain ⟨rp, hmem, hrp⟩ := List.any_eq_true.mp hfailed
    refine List.any_eq_true.mpr ⟨rp, hmem, ?_⟩
    simp [ReadPage.failed, (beq_iff_eq.mp hrp : rp.progress = _)]
  have hopen : (ps.map ReadPage.withdraw).any ReadPage.open? = false := by
    simpa [List.any_map, Function.comp_def, ReadPage.open_withdraw] using hclosed
  have hanswer : readAnswer (ps.map ReadPage.withdraw) = .fault .laneOffline := by
    refine if_pos ?_
    simpa [List.any_map, Function.comp_def, ReadPage.failedWith_withdraw] using hfailed
  rw [State.advanceRead_failed hfailing, if_neg (by simp [hopen]), hanswer]
  exact answeredOffline_requests _ ⟨rfl, congrArg (· ++ _) s.withdrawHostReads_answers⟩

/-- A read one of whose pages has failed goes on while another is still being read. -/
theorem advanceRead_goes_on {ps : List ReadPage} (hfailed : ps.any ReadPage.failed = true)
    (hopen : ps.any ReadPage.onLane = true) :
    (s.advanceRead ps).port = .reading (ps.map ReadPage.withdraw) ∧ (s.advanceRead ps).answers = s.answers := by
  have hopen' : (ps.map ReadPage.withdraw).any ReadPage.open? = true := by
    simpa [List.any_map, Function.comp_def, ReadPage.open_withdraw] using hopen
  rw [State.advanceRead_failed hfailed, if_pos hopen']
  exact ⟨rfl, s.withdrawHostReads_answers⟩

/-! ### The page that ends with the lane (03 R62) -/

/-- The page as it is told of the loss of its lane. -/
def ReadPage.lost (rp : ReadPage) : ReadPage := { rp with progress := .failed .laneOffline }

/-- The read in progress has the page given in its place, open, and its other page is not being read on a lane. -/
def State.ReadsOn (s : State) (b : Bool) (rp : ReadPage) (answers : List HostAnswer) : Prop :=
  ∃ other, s.port = .reading (pagesOfRead b rp other) ∧ rp.open? = true ∧ (b = true → other.isSome = true) ∧
    other.any ReadPage.onLane = false ∧ s.answers = answers

theorem setProgress_pagesOfRead (h : s.port = .reading (pagesOfRead b rp other))
    (hboth : b = true → other.isSome = true) (g : ReadProgress) :
    s.setProgress b g = s.advanceRead (pagesOfRead b { rp with progress := g } other) := by
  rw [State.setProgress_reading h]
  cases b with
  | false => rfl
  | true =>
    obtain ⟨q, rfl⟩ := Option.isSome_iff_exists.mp (hboth rfl)
    rfl

theorem setProgress_other (h : s.port = .reading (pagesOfRead b rp other)) (hboth : b = true → other.isSome = true)
    (g : ReadProgress) : s.setProgress (!b) g =
      s.advanceRead (pagesOfRead b rp (other.map (fun q => { q with progress := g }))) := by
  rw [State.setProgress_reading h]
  cases b with
  | false => cases other <;> rfl
  | true =>
    obtain ⟨q, rfl⟩ := Option.isSome_iff_exists.mp (hboth rfl)
    rfl

theorem State.AnsweredOffline.setProgress (h : s.AnsweredOffline answers) (b : Bool) (g : ReadProgress) :
    s.setProgress b g = s := by
  simp [State.setProgress, h.1]

/-- The page told of the loss of its lane answers the read. -/
theorem State.ReadsOn.answered (h : s.ReadsOn b rp answers) :
    (s.setProgress b (.failed .laneOffline)).AnsweredOffline answers := by
  obtain ⟨other, hport, -, hboth, hclosed, rfl⟩ := h
  rw [setProgress_pagesOfRead hport hboth]
  refine advanceRead_answers ?_ ?_
  · rw [any_pagesOfRead, ReadPage.failedWith_failed]
    rfl
  · rw [any_pagesOfRead, hclosed]
    rfl

theorem ReadPage.not_failed_of_open (h : rp.open? = true) : rp.failed = false := by
  cases hp : rp.progress <;> simp_all [ReadPage.open?, ReadPage.failed]

/-- The other page told of the loss first answers the read, or the read goes on for this page. -/
theorem State.ReadsOn.other_lost (h : s.ReadsOn b rp answers) :
    (s.setProgress (!b) (.failed .laneOffline)).ReadsOn b rp answers ∨
      (s.setProgress (!b) (.failed .laneOffline)).AnsweredOffline answers := by
  obtain ⟨other, hport, hopen, hboth, hclosed, rfl⟩ := h
  rw [setProgress_other hport hboth]
  cases other with
  | none =>
    refine .inl ⟨none, ?_, hopen, hboth, rfl, ?_⟩
    all_goals
      rw [Option.map_none, State.advanceRead_open]
      all_goals simp [any_pagesOfRead, hopen, ReadPage.not_failed_of_open hopen]
  | some q =>
    rw [Option.map_some]
    have hfailed : ∀ f, (pagesOfRead b rp (some { q with progress := .failed .laneOffline })).any f =
        (f rp || f q.lost) := fun f => any_pagesOfRead ..
    cases hlane : rp.onLane with
    | false =>
      refine .inr (advanceRead_answers ?_ ?_)
      · rw [hfailed, ReadPage.lost, ReadPage.failedWith_failed]
        simp
      · rw [hfailed, hlane]
        rfl
    | true =>
      obtain ⟨hgoes, hanswers⟩ := advanceRead_goes_on (s := s)
        (ps := pagesOfRead b rp (some { q with progress := .failed .laneOffline }))
        (by rw [hfailed]; exact Bool.or_true _) (by rw [hfailed, hlane]; rfl)
      refine .inl ⟨some q.lost, ?_, hopen, fun _ => rfl, rfl, hanswers⟩
      rw [hgoes, map_pagesOfRead, ReadPage.withdraw_of_onLane hlane]
      rfl

/-! ### The read through the loss -/

/-- The read goes on, or has been answered. -/
def State.ReadsOrAnswered (s : State) (b : Bool) (rp : ReadPage) (answers : List HostAnswer) : Prop :=
  s.ReadsOn b rp answers ∨ s.AnsweredOffline answers

theorem State.ReadsOrAnswered.stays (h : s.ReadsOrAnswered b rp answers) (hstays : PortStays s t) :
    t.ReadsOrAnswered b rp answers := by
  obtain ⟨other, hport, hopen, hboth, hclosed, hanswers⟩ | hdone := h
  · obtain ⟨gport, ganswers⟩ := hstays (by simp [hport])
    exact .inl ⟨other, gport.trans hport, hopen, hboth, hclosed, ganswers.trans hanswers⟩
  · exact .inr (hdone.stays hstays)

theorem State.ReadsOrAnswered.answered (h : s.ReadsOrAnswered b rp answers) :
    (s.setProgress b (.failed .laneOffline)).AnsweredOffline answers := by
  obtain hreads | hdone := h
  · exact hreads.answered
  · rwa [hdone.setProgress]

theorem State.AnsweredOffline.answerLost (h : s.AnsweredOffline answers) (held : Bool) (d : Claim) :
    (s.answerLost held d).AnsweredOffline answers := by
  by_cases hd : ∃ m, d = .hostRead m
  · obtain ⟨m, rfl⟩ := hd
    change (s.setProgress m (.failed .laneOffline)).AnsweredOffline answers
    rwa [h.setProgress]
  · exact h.stays (portStays_answerLost s held fun m e => hd ⟨m, e⟩)

theorem State.ReadsOrAnswered.answerLost (h : s.ReadsOrAnswered b rp answers) (held : Bool) (d : Claim) :
    (s.answerLost held d).ReadsOrAnswered b rp answers := by
  by_cases hd : ∃ m, d = .hostRead m
  · obtain ⟨m, rfl⟩ := hd
    obtain hreads | hdone := h
    · by_cases hm : m = b
      · exact .inr (hm ▸ hreads.answered)
      · obtain rfl : m = !b := Bool.eq_not.mpr hm
        exact hreads.other_lost
    · exact .inr (hdone.answerLost held (.hostRead m))
  · exact h.stays (portStays_answerLost s held fun m e => hd ⟨m, e⟩)

theorem State.ReadsOrAnswered.endLostOp (h : s.ReadsOrAnswered b rp answers) (l : LaneId) (op : Option Op)
    (started held : Bool) : (s.endLostOp l op started held).ReadsOrAnswered b rp answers := by
  match op with
  | none => exact h
  | some (.read (.host m) _ _ _) => exact h.answerLost held (.hostRead m)
  | some (.read (.fill j) _ _ _) => exact h.answerLost held (.fillRead j)
  | some (.read .patrol _ _ _) => exact h.answerLost held .patrolRead
  | some (.read .relocation _ _ _) => exact h.stays (portStays_dropRelocHead s _ _)
  | some (.commit _ _ _ _ _) => exact h.stays (portStays_loseCommit s _ _ _)
  | some (.record _ _ _ _ _ _) => exact h.stays (portStays_finishLong s _ _)
  | some (.mark _ _) => exact h

theorem portStays_judged (s : State) : PortStays s s.recompute.exhaust := by
  obtain ⟨_, _, _, _, hframe⟩ := s.recompute_frame
  have hpool := (poolStep_exhaust s.recompute).port
  rw [hframe] at hpool ⊢
  exact hpool

/-- A host read none of whose other pages is being read is answered FAULT LANE_OFFLINE. -/
theorem hostRead_ended (h : .hostRead b ∈ (s.lane l).readsEnding) (hpage : s.readPage b = some rp)
    (hopen : rp.open? = true) (hother : (s.readPage (!b)).all (fun q => !q.onLane) = true) (hle : s.readPages ≤ 2) :
    (s.loseLane l page cause).AnsweredOffline s.answers := by
  obtain ⟨hport, hboth⟩ := State.port_of_two hpage hle
  have hclosed : (s.readPage (!b)).any ReadPage.onLane = false := by
    cases hq : s.readPage (!b) <;> simp_all
  have hstart : (s.takeOffline l page cause).ReadsOrAnswered b rp s.answers :=
    .inl ⟨s.readPage (!b), hport, hopen, hboth, hclosed, rfl⟩
  have hdiscard := (poolStep_discardBound (s.opEnded l page cause) l).port
  have htold : (s.readersTold l page cause).AnsweredOffline s.answers :=
    readersTold_reaches (P := (·.ReadsOrAnswered b rp s.answers)) (J := (·.AnsweredOffline s.answers)) h hstart
      (hstart.endLostOp ..) (·.stays hdiscard) (·.stays hdiscard) (fun u d hu => hu.answerLost _ d)
      (fun u d hu => hu.answerLost _ d) fun u hu => hu.answered
  exact htold.stays (portStays_judged _)

/-- The four kinds of claims together (06 R104, R105). -/
theorem claimsLost_of_settled (h : Settled (s.loseLane l page cause) t) : t.ClaimsLost s l := by
  refine ⟨fun b hb rp hpage hopen hother hle => ?_, fun k hk sl hsl horigin hexh hspace => ?_, fun hpatrol => ?_,
    fun hrecord c hlong hc => ?_⟩
  · rw [h.port, h.answers]
    exact hostRead_ended hb hpage hopen hother hle
  · have hlost : (s.loseLane l page cause).space ≠ .exhausted := (poolEnds_of_settled (.refl _) h).space ▸ hspace
    obtain ⟨hslot, hmem⟩ := fill_ended hk hsl horigin hexh hlost
    exact ⟨(h.slot k).trans hslot, h.queue ▸ hmem⟩
  · obtain ⟨_, _, _, rfl, -⟩ := h
    exact patrol_ended hpatrol
  · rw [h.longCmd, h.notices]
    exact recordProgram_ended hrecord hlong hc

/-! ### The loss of a lane (06 R103 to R106, R112) -/

theorem lostLane_of_mounting (h : s.mode = .mounting) (hend : t.WentOffline s l page cause) :
    t.LostLane s l page cause :=
  ⟨hend.online, hend.op, hend.claims, hend.passOver, (FaultFlags.ofLane_eq _ l).trans hend.flag, hend.notice,
    hend.other, fun hne => absurd h hne⟩

theorem State.space_loseLane (s : State) (l : LaneId) (page : Option Nat) (cause : Nat) :
    (s.loseLane l page cause).space = (s.loseLane l page cause).spaceNow := by
  rw [State.loseLane_eq, (poolOnly_exhaust _).space, (poolOnly_exhaust _).spaceNow, State.recompute_space,
    State.spaceNow_recompute]

/-- The loss of a lane in service. -/
theorem loseLane_ends (hq : s.Quiet) (l : LaneId) (page : Option Nat) (cause : Nat) :
    (s.loseLane l page cause).settle.LostLane s l page cause := by
  have hstep := lossStep_loseLane s l page cause
  have hkeeps := keeps_loseLane s l page cause
  rw [settle_of_quiet (hstep.link.trans hq.2)]
  have hsettled := settled_refresh (s.loseLane l page cause)
  have hgone := keeps_refresh (s.loseLane l page cause)
  have hends := poolEnds_of_settled (.refl _) hsettled
  have hend := wentOffline_refresh hstep.toLossKept
  have hotherOp : ((s.loseLane l page cause).lane l.other).op = (s.lane l.other).op := by
    obtain ⟨-, hop, -⟩ := hstep.lane l.other
    rwa [State.lane_takeOffline_other] at hop
  refine ⟨hend.online, hend.op, hend.claims, hend.passOver, (FaultFlags.ofLane_eq _ l).trans hend.flag, hend.notice,
    hend.other, fun _ => ⟨hends.remap.trans hstep.remap, hgone.cfg.trans hkeeps.cfg, hends.seq.trans hstep.seq,
      hgone.formatBase.trans hkeeps.formatBase, ?_, (hends.op _).trans hotherOp, fun hfills k hk => ?_,
      opLost_of_settled hsettled, claimsLost_of_settled hsettled⟩⟩
  · rw [hends.space, hends.spaceNow, State.space_loseLane]
  · have hnone : (s.loseLane l page cause).boundTo l k = false := by
      refine noneBound_loseLane page cause (fun c hc j hj => ?_) k (hsettled.queue ▸ hk)
      have hfill := List.all_eq_true.mp hfills c hc
      rw [hj, Option.bind_some] at hfill
      cases hslot : s.slot j <;> simp_all [State.boundTo]
    rw [hsettled.slot]
    cases hslot : (s.loseLane l page cause).slot k <;> simp_all [State.boundTo]

theorem goOffline_ends (hq : s.Quiet) (l : LaneId) (page : Option Nat) (cause : Nat) :
    (s.goOffline l page cause).settle.LostLane s l page cause := by
  unfold State.goOffline
  split
  · exact lostLane_of_mounting ‹_› (mountLose_ends hq l page cause)
  · exact loseLane_ends hq l page cause

/-- Settles O36: the three time-outs by the loss of the lane, in a mount and in service. -/
theorem timeoutTakesLaneOffline : Obligations.TimeoutTakesLaneOffline := by
  refine fun s l hq => ⟨fun i hread => ⟨_, ?_, goOffline_ends hq l (some i) 1⟩,
    fun i hprogram => ⟨_, ?_, goOffline_ends hq l (some i) 2⟩, fun page hwait => ⟨_, ?_, goOffline_ends hq l page 3⟩⟩
  · change execReadTimeout l s = _
    rw [execReadTimeout, hread]
    rfl
  · change execProgramTimeout l s = _
    rw [execProgramTimeout, hprogram]
    rfl
  · change execReadyTimeout l s = _
    rw [execReadyTimeout, hwait]
    rfl

end Sys2Proof.Machine
end

section
/-! PROOFS. A codeword read with inverted bits (07 R116, 12 R175): an inverted data bit turns the parity over and moves
the syndrome by its position, so one inverted bit names itself and two leave the parity even under a syndrome that is
not 0. -/

namespace Sys2Proof.Machine

/-! ### One bit of a byte inverted -/

theorem toNat_xor_bit (b : Byte) {j : Nat} (hj : j < 8) : (b ^^^ (1#8 <<< j)).toNat = b.toNat ^^^ 2 ^ j := by
  have hpow : 2 ^ j < 2 ^ 8 := Nat.pow_lt_pow_right (by decide) hj
  rw [BitVec.toNat_xor, BitVec.toNat_shiftLeft, BitVec.toNat_ofNat, Nat.mod_eq_of_lt (by decide : 1 < 2 ^ 8),
    Nat.one_shiftLeft, Nat.mod_eq_of_lt hpow]

theorem length_lowBits (n w : Nat) : (lowBits n w).length = n := by simp [lowBits]

theorem lowBits_xor_two_pow (n w j : Nat) : lowBits n (w ^^^ 2 ^ j) = (lowBits n w).modify j not := by
  refine List.ext_getElem? fun i => ?_
  rw [List.getElem?_modify]
  by_cases hi : i < n
  · by_cases hij : j = i <;> simp [lowBits, hi, hij]
  · simp [lowBits, hi]

theorem parity_modify_not {bits : List Bool} {d : Nat} (h : d < bits.length) :
    parity (bits.modify d not) = !parity bits := by
  induction bits generalizing d with
  | nil => cases h
  | cons b bits ih =>
    cases d with
    | zero => simp [parity]
    | succ d => simpa [parity] using congrArg (b ^^ ·) (ih (Nat.lt_of_succ_lt_succ h))

/-! ### One bit of a codeword inverted -/

theorem modify_append_left {α : Type} {xs : List α} {i : Nat} (h : i < xs.length) (ys : List α) (f : α → α) :
    (xs ++ ys).modify i f = xs.modify i f ++ ys := by
  induction xs generalizing i with
  | nil => cases h
  | cons x xs ih =>
    cases i with
    | zero => rfl
    | succ i => exact congrArg (x :: ·) (ih (Nat.lt_of_succ_lt_succ h))

theorem modify_append_right {α : Type} (xs ys : List α) (i : Nat) (f : α → α) :
    (xs ++ ys).modify (i + xs.length) f = xs ++ ys.modify i f := by
  induction xs with
  | nil => rfl
  | cons x xs ih => exact congrArg (x :: ·) ih

theorem dataBits_cons (b : Byte) (cw : List Byte) : dataBits (b :: cw) = lowBits 8 b.toNat ++ dataBits cw := rfl

theorem length_dataBits (cw : List Byte) : (dataBits cw).length = 8 * cw.length := by
  induction cw with
  | nil => rfl
  | cons b cw ih => rw [dataBits_cons, List.length_append, length_lowBits, ih, List.length_cons]; omega

theorem flipBit_cons_of_lt (b : Byte) (cw : List Byte) {d : Nat} (h : d < 8) :
    flipBit (b :: cw) d = (b ^^^ (1#8 <<< d)) :: cw := by
  simp [flipBit, Nat.div_eq_of_lt h, Nat.mod_eq_of_lt h]

theorem flipBit_cons_add (b : Byte) (cw : List Byte) (d : Nat) : flipBit (b :: cw) (d + 8) = b :: flipBit cw d := by
  simp [flipBit]

/-- Inverting bit d of a codeword inverts bit d of its data bits. -/
theorem dataBits_flipBit (cw : List Byte) (d : Nat) : dataBits (flipBit cw d) = (dataBits cw).modify d not := by
  induction cw generalizing d with
  | nil => simp [flipBit, dataBits]
  | cons b cw ih =>
    rw [dataBits_cons]
    by_cases hd : d < 8
    · rw [flipBit_cons_of_lt b cw hd, dataBits_cons, toNat_xor_bit b hd, lowBits_xor_two_pow,
        modify_append_left (by rwa [length_lowBits])]
    · obtain ⟨e, rfl⟩ := Nat.exists_eq_add_of_le' (Nat.le_of_not_lt hd)
      rw [flipBit_cons_add, dataBits_cons, ih]
      exact (modify_append_right (lowBits 8 b.toNat) (dataBits cw) e not).symm

theorem length_flipBit (cw : List Byte) (d : Nat) : (flipBit cw d).length = cw.length := List.length_set

/-- A bit inverted twice is as it was. -/
theorem flipBit_flipBit (cw : List Byte) (d : Nat) : flipBit (flipBit cw d) d = cw := by
  by_cases hd : d / 8 < cw.length
  · simp [flipBit, hd]
  · simp [flipBit, List.set_eq_of_length_le (Nat.le_of_not_lt hd)]

/-! ### Positions (12 R175) -/

theorem length_dataPositions : dataPositions.length = 64 := by decide

theorem nodup_dataPositions : dataPositions.Nodup := by decide

/-- No data bit stands at position 0 or at the position of a check bit. -/
theorem ne_zero_of_mem_dataPositions {p : Nat} (h : p ∈ dataPositions) : p ≠ 0 ∧ isPow2 p = false := by
  simp only [dataPositions, List.mem_filter, Bool.and_eq_true, decide_eq_true_eq, Bool.not_eq_true'] at h
  obtain ⟨-, hlow, hpow⟩ := h
  exact ⟨by omega, hpow⟩

theorem idxOf?_dataPositions {d p : Nat} (h : dataPositions[d]? = some p) : dataPositions.idxOf? p = some d := by
  obtain ⟨hd, hp⟩ := List.getElem?_eq_some_iff.1 h
  refine List.idxOf?_eq_some_iff.2 ⟨hd, hp, fun j hj he => ?_⟩
  exact absurd (nodup_dataPositions.getElem_inj_iff.1 (he.trans hp.symm)) hj.ne

/-- The seven check bits of data bits that stand at given positions: `checkLow` for any list of positions, so that the
list can be taken apart. -/
def checkLowAt (bits : List Bool) (positions : List Nat) : Nat :=
  (bits.zip positions).foldr (fun p acc => if p.1 then p.2 ^^^ acc else acc) 0

theorem checkLow_eq (bits : List Bool) : checkLow bits = checkLowAt bits dataPositions := rfl

theorem checkLowAt_cons (b : Bool) (bits : List Bool) (q : Nat) (positions : List Nat) :
    checkLowAt (b :: bits) (q :: positions) = (if b then q else 0) ^^^ checkLowAt bits positions := by
  cases b <;> simp [checkLowAt]

theorem checkLowAt_modify_not {bits : List Bool} {positions : List Nat} {d p : Nat} (hd : d < bits.length)
    (hp : positions[d]? = some p) : checkLowAt (bits.modify d not) positions = p ^^^ checkLowAt bits positions := by
  induction bits generalizing positions d with
  | nil => cases hd
  | cons b bits ih =>
    cases positions with
    | nil => cases hp
    | cons q positions =>
      cases d with
      | zero =>
        obtain rfl : q = p := Option.some.inj hp
        rw [List.modify_zero_cons, checkLowAt_cons, checkLowAt_cons]
        cases b <;> simp
      | succ d =>
        rw [List.modify_succ_cons, checkLowAt_cons, checkLowAt_cons, ih (Nat.lt_of_succ_lt_succ hd) hp,
          Nat.xor_left_comm]

/-! ### Syndrome and parity -/

/-- The check bits read against those the data bits give (07 R116). -/
def syndromeOf (cw : List Byte) (chk : Byte) : Nat := checkLow (dataBits cw) ^^^ (chk.toNat % 128)

/-- The parity of all 72 bits of a codeword as read. -/
def oddParity (cw : List Byte) (chk : Byte) : Bool := parity (dataBits cw) ^^ parity (lowBits 8 chk.toNat)

theorem decodeCodeword_eq (cw : List Byte) (chk : Byte) : decodeCodeword cw chk =
    if oddParity cw chk then
      if syndromeOf cw chk = 0 || isPow2 (syndromeOf cw chk) then (.corrected, cw)
      else
        match dataPositions.idxOf? (syndromeOf cw chk) with
        | some d => (.corrected, flipBit cw d)
        | none => (.uncorrectable, cw)
    else if syndromeOf cw chk = 0 then (.clean, cw)
    else (.uncorrectable, cw) := rfl

/-- Even parity under a syndrome that is not 0. -/
theorem decodeCodeword_of_even {cw : List Byte} {chk : Byte} (hodd : oddParity cw chk = false)
    (h : syndromeOf cw chk ≠ 0) : decodeCodeword cw chk = (.uncorrectable, cw) := by
  rw [decodeCodeword_eq, hodd, if_neg Bool.false_ne_true, if_neg h]

/-- Odd parity under a syndrome that names a check bit. -/
theorem decodeCodeword_of_check {cw : List Byte} {chk : Byte} (hodd : oddParity cw chk = true)
    (h : (syndromeOf cw chk = 0 || isPow2 (syndromeOf cw chk)) = true) :
    decodeCodeword cw chk = (.corrected, cw) := by
  rw [decodeCodeword_eq, if_pos hodd, if_pos h]

/-- Odd parity under a syndrome that names a data bit. -/
theorem decodeCodeword_of_data {cw : List Byte} {chk : Byte} {d p : Nat} (hodd : oddParity cw chk = true)
    (hp : dataPositions[d]? = some p) (h : syndromeOf cw chk = p) :
    decodeCodeword cw chk = (.corrected, flipBit cw d) := by
  obtain ⟨hzero, hpow⟩ := ne_zero_of_mem_dataPositions (List.mem_of_getElem? hp)
  rw [decodeCodeword_eq, if_pos hodd, h, idxOf?_dataPositions hp, if_neg (by simp [hzero, hpow])]

theorem syndromeOf_checkByte (cw : List Byte) : syndromeOf cw (checkByte cw) = 0 := by
  rw [syndromeOf, checkByte_mod, Nat.xor_self]

theorem oddParity_checkByte (cw : List Byte) : oddParity cw (checkByte cw) = false := by
  rw [oddParity, parity_checkByte, Bool.xor_self]

section
variable {cw : List Byte} {d p : Nat} (hd : d < 8 * cw.length)
include hd

theorem oddParity_flipBit (chk : Byte) : oddParity (flipBit cw d) chk = !oddParity cw chk := by
  rw [oddParity, dataBits_flipBit, parity_modify_not (by rwa [length_dataBits]), Bool.not_xor, oddParity]

theorem syndromeOf_flipBit (hp : dataPositions[d]? = some p) (chk : Byte) :
    syndromeOf (flipBit cw d) chk = p ^^^ syndromeOf cw chk := by
  rw [syndromeOf, dataBits_flipBit, checkLow_eq, checkLowAt_modify_not (by rwa [length_dataBits]) hp, Nat.xor_assoc,
    syndromeOf, checkLow_eq]
end

section
variable {j : Nat} (hj : j < 8)
include hj

theorem oddParity_xor_bit (cw : List Byte) (chk : Byte) :
    oddParity cw (chk ^^^ (1#8 <<< j)) = !oddParity cw chk := by
  rw [oddParity, toNat_xor_bit chk hj, lowBits_xor_two_pow, parity_modify_not (by rwa [length_lowBits]), Bool.xor_not,
    oddParity]

theorem syndromeOf_xor_bit (cw : List Byte) (chk : Byte) :
    syndromeOf cw (chk ^^^ (1#8 <<< j)) = syndromeOf cw chk ^^^ (2 ^ j % 128) := by
  rw [syndromeOf, toNat_xor_bit chk hj, Nat.xor_mod_two_pow (n := 7), ← Nat.xor_assoc, syndromeOf]

/-- Check bit j moves the syndrome by a power of two, and bit 7, the parity bit, does not move it. -/
theorem check_bit_named : (2 ^ j % 128 = 0 || isPow2 (2 ^ j % 128)) = true := by
  revert j
  decide
end

/-! ### One and two inverted bits -/

/-- Settles O12: by syndrome and parity of the codeword as programmed, then with one or two of its bits inverted. -/
theorem codewordErrorsJudged : Obligations.CodewordErrorsJudged := by
  intro cw hlen
  have hposition : ∀ d < 64, ∃ p, dataPositions[d]? = some p := fun d hd =>
    ⟨_, List.getElem?_eq_getElem (by rwa [length_dataPositions])⟩
  refine ⟨decodeCodeword_checkByte cw, fun d hd => ?_, fun j hj => ?_, fun d hd e he hne => ?_⟩
  · obtain ⟨p, hp⟩ := hposition d hd
    have hin : d < 8 * cw.length := by omega
    have hodd : oddParity (flipBit cw d) (checkByte cw) = true := by
      rw [oddParity_flipBit hin, oddParity_checkByte, Bool.not_false]
    have hsyndrome : syndromeOf (flipBit cw d) (checkByte cw) = p := by
      rw [syndromeOf_flipBit hin hp, syndromeOf_checkByte, Nat.xor_zero]
    rw [decodeCodeword_of_data hodd hp hsyndrome, flipBit_flipBit]
  · refine decodeCodeword_of_check ?_ ?_
    · rw [oddParity_xor_bit hj, oddParity_checkByte, Bool.not_false]
    · rw [syndromeOf_xor_bit hj, syndromeOf_checkByte, Nat.zero_xor]
      exact check_bit_named hj
  · obtain ⟨p, hp⟩ := hposition d hd
    obtain ⟨q, hq⟩ := hposition e he
    have hind : d < 8 * cw.length := by omega
    have hine : e < 8 * (flipBit cw d).length := by rw [length_flipBit]; omega
    refine decodeCodeword_of_even ?_ ?_
    · rw [oddParity_flipBit hine, oddParity_flipBit hind, Bool.not_not, oddParity_checkByte]
    · rw [syndromeOf_flipBit hine hq, syndromeOf_flipBit hind hp, syndromeOf_checkByte, Nat.xor_zero,
        Nat.xor_ne_zero_iff]
      rintro rfl
      exact hne (Option.some.inj ((idxOf?_dataPositions hp).symm.trans (idxOf?_dataPositions hq)))

end Sys2Proof.Machine
end

section
/-! PROOFS. The end of a decoded read: its lane released, its outcomes counted, and its one notice (07 R118, R119). -/

namespace Sys2Proof.Machine

variable {d : Decoded}

/-- A newly lost codeword is not already poisoned, by the flag of its tag (07 R119). -/
theorem newlyLost_and_poisoned (bytes : List Byte) (n q : Nat) :
    (decodeRead bytes n q).newlyLost &&& (decodeRead bytes n q).poisoned = 0 := by
  refine BitVec.eq_of_getLsbD_eq fun i hi => ?_
  rw [BitVec.getLsbD_and, decodeRead]
  dsimp only
  rw [getLsbD_cwMask _ hi, getLsbD_cwMask _ hi]
  cases (tagPoison (readTag (tagBytes bytes))).getLsbD i <;> simp

theorem State.noteUncorrectable_of_none (h : .uncorrectable ∉ d.outcomes) (s : State) (p : PPage) (n : Nat) :
    s.noteUncorrectable p n d = s := if_neg (mt (d.has_iff _).1 h)

theorem State.noteUncorrectable_of_some (h : .uncorrectable ∈ d.outcomes) (s : State) (p : PPage) (n : Nat) :
    s.noteUncorrectable p n d =
      (s.give (uncorrectableNotice p n d)).flag (fun f => { f with uncorrectable := true }) :=
  if_pos ((d.has_iff _).2 h)

theorem State.give_of_room {s : State} (h : s.notices.length < 32) (n : Notice) :
    s.give n = { s with notices := s.notices ++ [n] } := by
  have hroom : s.notices.length < Config.noticeCapacity := h
  simp only [State.give, if_pos hroom]

/-- The end of a read is the release of its lane, the counts and then the notice. -/
theorem State.readEnds_eq (s : State) (l : LaneId) (n i : Nat) (d : Decoded) :
    s.readEnds l n i d = ((s.idled l).countOutcomes d).noteUncorrectable { lane := l, index := i } n d := rfl

/-- Settles O41: with no UNCORRECTABLE codeword nothing is noted, and with one the notice is given and flagged. -/
theorem readOutcomesCounted : Obligations.ReadOutcomesCounted := by
  refine ⟨newlyLost_and_poisoned, fun s l n i d => ?_⟩
  rw [State.readEnds_eq]
  refine ⟨fun hnone => ?_, fun hlost => ?_, fun hlost hroom => ?_⟩
  · exact State.noteUncorrectable_of_none (fun hmem => hnone _ hmem rfl) ..
  · rw [State.noteUncorrectable_of_some hlost]
    rfl
  · have hcounted : ((s.idled l).countOutcomes d).notices.length < 32 := hroom
    rw [State.noteUncorrectable_of_some hlost, State.give_of_room hcounted]
    rfl

end Sys2Proof.Machine
end

section
/-! PROOFS. The read-back of a relocation read: the entry is stale, or its page is staged, or the pool refuses the slot
(07 R125, 02 R42, R43). -/

namespace Sys2Proof.Machine

variable {s t : State} {l : LaneId} {n : Nat} {p : PPage}

/-! ### The map and the pool at the end of a read (07 R118) -/

theorem PoolOnly.remap (h : PoolOnly s t) : t.remap = s.remap := by
  obtain ⟨_, _, _, _, _, _, _, _, _, _, rfl⟩ := h; rfl

@[simp] theorem State.readEnds_remap (s : State) (l : LaneId) (n i : Nat) (d : Decoded) :
    (s.readEnds l n i d).remap = s.remap := (poolOnly_readEffects (s.endOp l) _ n d).remap

@[simp] theorem State.readEnds_mode (s : State) (l : LaneId) (n i : Nat) (d : Decoded) :
    (s.readEnds l n i d).mode = s.mode := by
  unfold State.readEnds State.readEffects State.noteUncorrectable
  split <;> rfl

@[simp] theorem State.readEnds_hasSlot (s : State) (l : LaneId) (n i : Nat) (d : Decoded) (m : Nat) :
    (s.readEnds l n i d).hasSlot m = s.hasSlot m := by
  simp only [State.hasSlot, State.readEnds_slots]

@[simp] theorem State.readEnds_freeCount (s : State) (l : LaneId) (n i : Nat) (d : Decoded) :
    (s.readEnds l n i d).freeCount = s.freeCount := by
  simp only [State.freeCount, State.readEnds_slots]

/-- The end of a read leaves what decides whether the entry still holds. -/
theorem State.staleRead_readEnds (s : State) (l : LaneId) (n i : Nat) (d : Decoded) (p : PPage) :
    (s.readEnds l n i d).staleRead n p = s.staleRead n p := by
  simp only [State.staleRead, State.mappedAt, State.entry, State.readEnds_hasSlot, State.readEnds_remap,
    (keeps_readEnds s l n i d).cfg]

/-- The end of a read leaves what decides whether the pool takes a slot. -/
theorem State.mayCreate_readEnds (s : State) (l : LaneId) (n i : Nat) (d : Decoded) :
    (s.readEnds l n i d).mayCreate n = s.mayCreate n := by
  rw [State.mayCreate_eq, State.readEnds_hasSlot, State.readEnds_freeCount, (keeps_readEnds s l n i d).causes,
    State.mayCreate_eq]

theorem State.firstFree_readEnds (s : State) (l : LaneId) (n i : Nat) (d : Decoded) :
    (s.readEnds l n i d).firstFree = s.firstFree := by
  simp only [State.firstFree, State.readEnds_slots]

/-- The end of a read allows no relocation read where the mode or the pool does not (07 R123). -/
theorem State.relocAllowed_readEnds (h : s.mode ≠ .run ∨ s.freeCount < 5) (l : LaneId) (n i : Nat) (d : Decoded) :
    (s.readEnds l n i d).relocAllowed = false := by
  refine Bool.eq_false_iff.2 fun hallowed => ?_
  obtain ⟨-, hmode, hfree⟩ := (relocAllowed_iff _).1 hallowed
  rw [State.readEnds_mode] at hmode
  rw [State.readEnds_freeCount] at hfree
  exact h.elim (fun hne => hne hmode) fun hlow => absurd hfree (Nat.not_le_of_lt hlow)

/-! ### The slot of a RELOCATE page (02 R42, R43) -/

theorem State.createSlot_staged (hexh : s.exhaustion = false) (hmay : s.mayCreate n = true) {k : Nat}
    (hk : s.firstFree = some k) (o : Origin) (data : List Byte) (poison : BitVec 8) :
    s.createSlot n o data poison = some (s.staged k n o data poison) := by
  obtain ⟨j, hj, hcreate⟩ := State.createSlot_of_mayCreate hmay o data poison
  obtain rfl : j = k := Option.some.inj (hj.symm.trans hk)
  rw [hcreate]
  exact congrArg some (State.enqueueTail_of_not (s := { (s.setSlot j (some (internalSlot s.nextStamp n o data poison)))
    with nextStamp := s.nextStamp + 1 }) hexh j)

/-! ### The command -/

theorem exec_relocationReadDone {i q : Nat} {bytes : List Byte} (hbytes : bytes.length = 88)
    (hop : (s.lane l).readOp = some (.relocation, n, i, q)) :
    exec (.relocationReadDone l bytes) s = .next (s.relocationDone l n i q bytes).settle := by
  have hlen : bytes.length = Config.pageBytes := hbytes
  change execRelocationReadDone l bytes s = _
  simp [execRelocationReadDone, hlen, hop]

theorem State.relocationDone_of_discard (h : (s.lane l).discard = true) (n i q : Nat) (bytes : List Byte) :
    s.relocationDone l n i q bytes = s.idled l := if_pos h

theorem State.relocationDone_of_kept (h : (s.lane l).discard = false) (n i q : Nat) (bytes : List Byte) :
    s.relocationDone l n i q bytes = (s.readEnds l n i (s.decode bytes n q)).relocationOutcome n
      { lane := l, index := i } (s.decode bytes n q) := if_neg (by simp [h])

/-! ### The three outcomes (07 R125) -/

theorem State.dropRelocHead_eq (s : State) (n : Nat) (p : PPage) : s.dropRelocHead n p =
    { s with relocList := if s.relocList.head? = some (n, p) then s.relocList.tail else s.relocList } := by
  unfold State.dropRelocHead
  split <;> rfl

section
variable {i q : Nat} {bytes : List Byte} (hkept : (s.lane l).discard = false)
include hkept

/-- An entry that no longer holds leaves the list without a slot. -/
theorem State.relocationDone_of_stale (hstale : s.staleRead n { lane := l, index := i } = true) :
    s.relocationDone l n i q bytes =
      (s.readEnds l n i (s.decode bytes n q)).dropRelocHead n { lane := l, index := i } := by
  rw [State.relocationDone_of_kept hkept]
  exact if_pos ((s.staleRead_readEnds ..).trans hstale)

variable (hholds : s.staleRead n { lane := l, index := i } = false)
include hholds

/-- An entry that holds is staged where the pool takes the slot, and then leaves the list. -/
theorem State.relocationDone_of_staged (hcalm : (s.readEnds l n i (s.decode bytes n q)).exhaustion = false)
    (hmay : s.mayCreate n = true) {k : Nat} (hk : s.firstFree = some k) :
    s.relocationDone l n i q bytes =
      ((s.readEnds l n i (s.decode bytes n q)).staged k n .relocate (s.decode bytes n q).data
        (s.decode bytes n q).poisonFound).dropRelocHead n { lane := l, index := i } := by
  rw [← s.mayCreate_readEnds l n i (s.decode bytes n q)] at hmay
  rw [← s.firstFree_readEnds l n i (s.decode bytes n q)] at hk
  rw [State.relocationDone_of_kept hkept, State.relocationOutcome, State.staleRead_readEnds, hholds,
    State.createSlot_staged hcalm hmay hk]
  rfl

/-- An entry that holds stays where the pool refuses the slot. -/
theorem State.relocationDone_of_refused (hmay : s.mayCreate n = false) :
    s.relocationDone l n i q bytes = s.readEnds l n i (s.decode bytes n q) := by
  rw [← s.mayCreate_readEnds l n i (s.decode bytes n q)] at hmay
  rw [State.relocationDone_of_kept hkept, State.relocationOutcome, State.staleRead_readEnds, hholds,
    State.createSlot_of_not hmay]
  rfl
end

/-- Where no relocation read is allowed the end of the step discards no entry (07 R123). -/
theorem Settled.relocList_of_not_allowed (h : Settled s t) (hnot : s.relocAllowed = false) :
    t.relocList = s.relocList := by
  obtain ⟨_, _, m, rfl, -, -, -, hdrop, -⟩ := h
  obtain rfl : m = 0 := hdrop.resolve_right (by simp [hnot])
  rfl

/-- Settles O44: a discarded read, then a kept one whose entry is stale, staged or refused. -/
theorem relocationReadStages : Obligations.RelocationReadStages := by
  refine ⟨fun s l bytes hq hbytes hdiscard r hop hr => ?_, fun s l bytes hq hbytes hkept hexh r hop hr => ?_⟩ <;>
    obtain ⟨reader, n, i, q⟩ := r <;>
    obtain rfl : reader = .relocation := hr <;>
    rw [exec_relocationReadDone hbytes hop]
  · rw [State.relocationDone_of_discard hdiscard]
    exact settlesTo_next hq.2
  · intro d p u list
    have hlink : u.link = [] := (s.readEnds_link ..).trans hq.2
    have hlist : u.relocList = s.relocList := s.readEnds_relocList ..
    have hcalm : u.exhaustion = false := (s.exhaustion_readEnds (Lane.not_committing_of_readOp hop) ..).trans hexh
    refine ⟨fun hgone => ?_, fun hpage hslot hmapped => ?_⟩
    · rw [State.relocationDone_of_stale hkept ((s.staleRead_iff n p).2 hgone), State.dropRelocHead_eq,
        State.readEnds_relocList]
      exact settlesTo_next hlink
    · have hholds : s.staleRead n p = false := by
        rw [State.staleRead]
        simpa [hslot, hmapped] using hpage
      refine ⟨fun hcauses hfree k hk => ?_, fun hrefused => ?_⟩
      · have hmay : s.mayCreate n = true := by
          rw [State.mayCreate_eq]
          simpa [hslot, hcauses] using hfree
        have hstaged : (u.staged k n .relocate d.data d.poisonFound).relocList = s.relocList := hlist
        rw [State.relocationDone_of_staged hkept hholds hcalm hmay hk, State.dropRelocHead_eq, hstaged]
        exact settlesTo_next hlink
      · have hmay : s.mayCreate n = false := by
          rw [State.mayCreate_eq]
          rcases hrefused with hcauses | hfew
          · simp [hcauses]
          · simp [Nat.not_le_of_lt hfew]
        rw [State.relocationDone_of_refused hkept hholds hmay]
        obtain ⟨t, hnext, hsettled⟩ := settlesTo_next hlink
        exact ⟨⟨t, hnext, hsettled⟩, fun hnot => ⟨t, hnext,
          (hsettled.relocList_of_not_allowed (State.relocAllowed_readEnds hnot ..)).trans hlist⟩⟩

end Sys2Proof.Machine
end

section
/-! PROOFS. The search of the patrol unit: the pages it passes over, the order in which it comes to them, the first page it
does not pass over, and the expiry that posts that page's read (08 R128 to R130). -/

namespace Sys2Proof.Machine

variable {s : State} {n : Nat} {p : PPage}

/-! ### The pages passed over (08 R130) -/

theorem State.mappedAt_iff (s : State) (n : Nat) (p : PPage) :
    s.mappedAt n p = true ↔ ∃ q, s.entry n = .mapped p q := by
  unfold State.mappedAt
  cases s.entry n <;> simp

/-- A page is passed over where its copy, if it has one, is staged in a slot or stands on an OFFLINE lane. -/
theorem State.passedOver_iff (s : State) (n : Nat) : s.passedOver n = true ↔
    ∀ p q, s.entry n = .mapped p q → s.hasSlot n = true ∨ (s.lane p.lane).online = false := by
  unfold State.passedOver
  cases s.entry n <;> simp

theorem State.passedOver_eq_false_iff (s : State) (n : Nat) : s.passedOver n = false ↔
    ∃ p q, s.entry n = .mapped p q ∧ s.hasSlot n = false ∧ (s.lane p.lane).online = true := by
  rw [← Bool.not_eq_true, s.passedOver_iff]
  simp

/-! ### The order of the search (08 R130) -/

/-- From any cursor the offsets below L come to every page below L. -/
theorem exists_offset_from_cursor (cursor : Nat) {capacity : Nat} (h : n < capacity) :
    ∃ i < capacity, (cursor + i) % capacity = n := by
  have hpos : 0 < capacity := Nat.zero_lt_of_lt h
  refine ⟨(n + (capacity - cursor % capacity)) % capacity, Nat.mod_lt _ hpos, ?_⟩
  have hle : cursor % capacity ≤ capacity := (Nat.mod_lt cursor hpos).le
  have hturns : cursor + (n + (capacity - cursor % capacity)) = n + capacity * (cursor / capacity + 1) := by
    have := Nat.div_add_mod cursor capacity
    rw [Nat.mul_succ]
    omega
  rw [Nat.add_mod_mod, hturns, Nat.add_mul_mod_self_left, Nat.mod_eq_of_lt h]

theorem State.mem_searchOrder_iff (s : State) (n : Nat) : n ∈ s.searchOrder ↔ n < s.cfg.capacity := by
  simp only [State.searchOrder, List.mem_map, List.mem_range]
  refine ⟨?_, fun h => exists_offset_from_cursor s.cursor h⟩
  rintro ⟨i, hi, rfl⟩
  exact Nat.mod_lt _ (Nat.zero_lt_of_lt hi)

/-- The first page of the search with a property is the one at the least offset from the cursor. -/
theorem State.exists_offset_of_find?_searchOrder {f : Nat → Bool} (h : s.searchOrder.find? f = some n) :
    f n = true ∧ ∃ i < s.cfg.capacity, n = (s.cursor + i) % s.cfg.capacity ∧
      ∀ j < i, f ((s.cursor + j) % s.cfg.capacity) = false := by
  rw [State.searchOrder, List.find?_map, Option.map_eq_some_iff] at h
  obtain ⟨i, hfind, rfl⟩ := h
  obtain ⟨hf, hi, hbefore⟩ := List.find?_range_eq_some.1 hfind
  exact ⟨hf, i, List.mem_range.1 hi, rfl, fun j hj => by simpa using hbefore j hj⟩

/-! ### The patrol page (08 R130) -/

theorem State.find?_of_patrolPage (h : s.patrolPage = some (n, p)) :
    s.searchOrder.find? (fun m => !s.passedOver m) = some n ∧ ∃ q, s.entry n = .mapped p q := by
  unfold State.patrolPage at h
  split at h
  · cases h
  · rename_i m hfind
    split at h
    · rename_i r q hentry
      cases h
      exact ⟨hfind, q, hentry⟩
    · cases h

/-- There is no patrol page exactly when the search passes over every page: one not passed over is MAPPED. -/
theorem State.patrolPage_eq_none_iff (s : State) :
    s.patrolPage = none ↔ ∀ n < s.cfg.capacity, s.passedOver n = true := by
  have hnone : s.patrolPage = none ↔ s.searchOrder.find? (fun m => !s.passedOver m) = none := by
    unfold State.patrolPage
    split
    · rename_i hfind
      simp [hfind]
    · rename_i m hfind
      obtain ⟨p, q, hentry, -⟩ := (s.passedOver_eq_false_iff m).1 (by simpa using List.find?_some hfind)
      simp [hfind, hentry]
  rw [hnone, List.find?_eq_none]
  simp [State.mem_searchOrder_iff]

/-- Settles O25: the first page of the search is the one at the least offset, and there is none where each is passed over. -/
theorem patrolSearchFindsFirst : Obligations.PatrolSearchFindsFirst := by
  refine ⟨fun s n p hpage => ?_, fun s => ?_⟩
  · obtain ⟨hfind, q, hentry⟩ := State.find?_of_patrolPage hpage
    obtain ⟨hkept, i, hi, hn, hbefore⟩ := State.exists_offset_of_find?_searchOrder hfind
    obtain ⟨r, _, hentry', hslot, honline⟩ := (s.passedOver_eq_false_iff n).1 (by simpa using hkept)
    obtain ⟨rfl, -⟩ := RemapEntry.mapped.inj (hentry'.symm.trans hentry)
    refine ⟨hslot, honline, (s.mappedAt_iff n r).2 ⟨q, hentry⟩, i, hi, hn, fun j hj t hmapped => ?_⟩
    obtain ⟨u, hcopy⟩ := (s.mappedAt_iff _ t).1 hmapped
    exact (s.passedOver_iff _).1 (by simpa using hbefore j hj) t u hcopy
  · simp only [s.patrolPage_eq_none_iff, s.passedOver_iff]

/-! ### The expiry of the interval timer (08 R129, R130) -/

theorem exec_patrolTimerExpiry (halive : s.alive = true) (htimer : s.timer.isSome = true) :
    exec .patrolTimerExpiry s = .next s.startTimer.patrolSearch.settle :=
  if_pos (by simp [halive, htimer])

theorem State.patrolSearch_of_page (hread : s.patrolRead = none) (hpage : s.patrolPage = some (n, p)) :
    s.patrolSearch = { ((s.advanceCursor n).post p.lane .patrolRead) with patrolRead := some (n, p) } := by
  simp only [State.patrolSearch, hread, hpage]

/-- With a read outstanding, or with no page to read, the search does nothing. -/
theorem State.patrolSearch_of_none (h : s.patrolRead.isSome = true ∨ s.patrolPage = none) : s.patrolSearch = s := by
  unfold State.patrolSearch
  split
  · rename_i hread hpage
    simp [hread, hpage] at h
  · rfl

/-- The search does not look at the interval timer. -/
@[simp] theorem State.startTimer_patrolPage (s : State) : s.startTimer.patrolPage = s.patrolPage := rfl

/-- Settles O35, by whether the search finds a page with no read outstanding. -/
theorem patrolExpiryPosts : Obligations.PatrolExpiryPosts := by
  intro s ⟨halive, hlink⟩ htimer
  rw [exec_patrolTimerExpiry halive htimer]
  refine ⟨fun hread ⟨n, p⟩ hpage => ?_, fun hnothing => ?_⟩
  · rw [State.patrolSearch_of_page (s := s.startTimer) hread hpage]
    exact settlesTo_next hlink
  · rw [State.patrolSearch_of_none (s := s.startTimer) hnothing]
    exact settlesTo_next hlink

end Sys2Proof.Machine
end

section
/-! PROOFS. The read-back of a patrol read: what each class of Table 8.1 makes of the copy where the pool takes the slot and
where it refuses it (08 R132 to R135, 02 R42, R43). -/

namespace Sys2Proof.Machine

variable {s : State} {l : LaneId} {n i q k : Nat} {p : PPage} {d : Decoded} {bytes : List Byte}

/-! ### Staging beside the soft count and the relocation list -/

@[simp] theorem State.staged_link (s : State) (k page : Nat) (o : Origin) (data : List Byte) (poison : BitVec 8) :
    (s.staged k page o data poison).link = s.link := rfl

/-- A slot staged and the soft count of a page do not meet. -/
theorem State.softened_staged (s : State) (k page : Nat) (o : Origin) (data : List Byte) (poison : BitVec 8)
    (p : PPage) : (s.staged k page o data poison).softened p = (s.softened p).staged k page o data poison := by
  have hpage : (s.staged k page o data poison).page p = s.page p := rfl
  unfold State.softened
  rw [hpage]
  split <;> rfl

/-- For a page without a slot the pool asks for no drain cause and five FREE slots (02 R43). -/
theorem State.mayCreate_of_no_slot (h : s.hasSlot n = false) :
    s.mayCreate n = (!s.causes.any && decide (5 ≤ s.freeCount)) := by
  rw [State.mayCreate_eq, h, Bool.not_false, Bool.true_and]

/-! ### A weakened copy (08 R133) -/

/-- A weakened copy that is staged takes its soft count unless its page is on the relocation list. -/
theorem State.weakened_of_staged (hcalm : s.exhaustion = false) (hmay : s.mayCreate n = true)
    (hk : s.firstFree = some k) (p : PPage) (d : Decoded) :
    s.weakened n p d =
      (if s.relocListed n then s else s.softened p).staged k n .relocate d.data d.poisonFound := by
  simp only [State.weakened, State.createSlot_staged hcalm hmay hk, State.bumpSoft_eq_softened, State.softened_staged]
  exact (apply_ite (fun t : State => t.staged k n .relocate d.data d.poisonFound) ..).symm

/-- A weakened copy that the pool refuses asks for its relocation, once, while the list has room. -/
theorem State.weakened_of_refused (hmay : s.mayCreate n = false) (hslot : s.hasSlot n = false) (p : PPage)
    (d : Decoded) :
    s.weakened n p d =
      if s.relocListed n || decide (8 ≤ s.relocList.length) then s
      else { (s.softened p) with relocList := s.relocList ++ [(n, p)] } := by
  simp only [State.weakened, State.createSlot_of_not hmay, State.relocRequest, hslot, Bool.false_or,
    State.bumpSoft_eq_softened, State.softened_relocList]
  rfl

/-! ### A newly lost codeword or a failed tag (08 R134) -/

theorem State.newlyLost_of_staged (hcalm : s.exhaustion = false) (hmay : s.mayCreate n = true)
    (hk : s.firstFree = some k) (d : Decoded) :
    s.newlyLost n d = s.staged k n .relocate d.data d.poisonFound := by
  rw [State.newlyLost, State.createSlot_staged hcalm hmay hk, Option.getD_some]

theorem State.newlyLost_of_refused (hmay : s.mayCreate n = false) (d : Decoded) : s.newlyLost n d = s := by
  rw [State.newlyLost, State.createSlot_of_not hmay, Option.getD_none]

/-! ### A sound copy (08 R135) -/

theorem State.sound_of_staged (hcalm : s.exhaustion = false) (hmay : s.mayCreate n = true)
    (hk : s.firstFree = some k) {m : LaneId} (hm : s.migrationTarget p = some m) (d : Decoded) :
    s.sound n p d = s.staged k n (.migrate m) d.data d.poisonFound := by
  simp only [State.sound, hm, State.createSlot_staged hcalm hmay hk, Option.getD_some]

/-- A sound copy stays where it is when the pool refuses the slot or no lane passes the migration test. -/
theorem State.sound_of_refused (h : s.mayCreate n = false ∨ s.migrationTarget p = none) (d : Decoded) :
    s.sound n p d = s := by
  unfold State.sound
  split
  · rename_i m hm
    have hmay : s.mayCreate n = false := h.resolve_right (by simp [hm])
    rw [State.createSlot_of_not hmay, Option.getD_none]
  · rfl

/-! ### The class that applies (08 R132) -/

theorem State.patrolOutcome_of_stale (h : s.staleRead n p = true) (d : Decoded) : s.patrolOutcome n p d = s := if_pos h

section
variable (hholds : s.staleRead n p = false)
include hholds

theorem State.patrolOutcome_of_corrected (h : .corrected ∈ d.outcomes) :
    s.patrolOutcome n p d = s.weakened n p d := by
  simp [State.patrolOutcome, hholds, (d.has_iff _).2 h]

variable (hsteady : .corrected ∉ d.outcomes)
include hsteady

theorem State.patrolOutcome_of_lost (h : d.tag ≠ .good ∨ d.newlyLost ≠ 0) :
    s.patrolOutcome n p d = s.newlyLost n d := by
  rw [State.patrolOutcome, hholds, if_neg (by simp), if_neg (mt (d.has_iff _).1 hsteady), if_pos h]

theorem State.patrolOutcome_of_sound (htag : d.tag = .good) (hnone : d.newlyLost = 0) :
    s.patrolOutcome n p d = s.sound n p d := by
  rw [State.patrolOutcome, hholds, if_neg (by simp), if_neg (mt (d.has_iff _).1 hsteady),
    if_neg (by simp [htag, hnone])]
end

/-! ### The migration test at the end of a read (07 R118, 08 R135) -/

theorem PoolOnly.migrationTarget {t : State} (h : PoolOnly s t) (p : PPage) :
    t.migrationTarget p = s.migrationTarget p := by
  obtain ⟨_, _, _, _, _, _, _, _, _, _, rfl⟩ := h
  rfl

/-- The release of a lane leaves what the migration test looks at: page tables, free lists and which lanes are ONLINE. -/
theorem State.migrationLane_endOp (s : State) (l m : LaneId) (wear : Nat) :
    (s.endOp l).migrationLane m wear = s.migrationLane m wear := by
  cases l <;> cases m <;> rfl

theorem State.migrationTarget_readEnds (s : State) (l : LaneId) (n i : Nat) (d : Decoded) (p : PPage) :
    (s.readEnds l n i d).migrationTarget p = s.migrationTarget p := by
  refine ((poolOnly_readEffects (s.endOp l) _ n d).migrationTarget p).trans ?_
  simp only [State.migrationTarget, State.migrationLane_endOp, State.page_endOp, State.endOp_cfg]

/-! ### The command -/

theorem exec_patrolReadDone (hbytes : bytes.length = 88) (hop : (s.lane l).readOp = some (.patrol, n, i, q)) :
    exec (.patrolReadDone l bytes) s = .next (s.patrolDone l n i q bytes).settle := by
  have hlen : bytes.length = Config.pageBytes := hbytes
  change execPatrolReadDone l bytes s = _
  simp [execPatrolReadDone, hlen, hop]

theorem State.patrolDone_of_discard (h : (s.lane l).discard = true) (n i q : Nat) (bytes : List Byte) :
    s.patrolDone l n i q bytes = { (s.idled l) with patrolRead := none } := if_pos h

theorem State.patrolDone_of_kept (h : (s.lane l).discard = false) (n i q : Nat) (bytes : List Byte) :
    s.patrolDone l n i q bytes =
      ({ (s.readEnds l n i (s.decode bytes n q)) with patrolRead := none } : State).patrolOutcome n
        { lane := l, index := i } (s.decode bytes n q) := if_neg (by simp [h])

/-- Settles O45: a discarded read, then a kept one by the class of its copy and by whether the pool has room. -/
theorem patrolReadJudged : Obligations.PatrolReadJudged := by
  refine ⟨fun s l bytes hq hbytes hdiscard r hop hr => ?_, fun s l bytes hq hbytes hkept hexh r hop hr => ?_⟩ <;>
    obtain ⟨reader, page, i, q⟩ := r <;>
    obtain rfl : reader = .patrol := hr
  · rw [exec_patrolReadDone hbytes hop, State.patrolDone_of_discard hdiscard]
    exact settlesTo_next hq.2
  · intro n d p u softer room o
    have ho : o = .next (u.patrolOutcome n p d).settle := by
      rw [← State.patrolDone_of_kept hkept]
      exact exec_patrolReadDone hbytes hop
    have hstale : u.staleRead n p = s.staleRead n p := s.staleRead_readEnds ..
    have hlink : u.link = [] := (s.readEnds_link ..).trans hq.2
    have hsofter : softer.link = [] := (u.softened_link p).trans hlink
    have hlist : u.relocList = s.relocList := s.readEnds_relocList ..
    have hlisted : u.relocListed n = s.relocListed n := congrArg (List.any · _) hlist
    have hcalm : u.exhaustion = false := (s.exhaustion_readEnds (Lane.not_committing_of_readOp hop) ..).trans hexh
    have hfree : u.firstFree = s.firstFree := s.firstFree_readEnds ..
    have htarget : u.migrationTarget p = s.migrationTarget p := s.migrationTarget_readEnds ..
    rw [ho]
    refine ⟨fun hgone => ?_, fun hpage hslot hmapped => ?_⟩
    · rw [State.patrolOutcome_of_stale (hstale.trans ((s.staleRead_iff n p).2 hgone))]
      exact settlesTo_next hlink
    · have hholds : u.staleRead n p = false := by
        rw [hstale, State.staleRead]
        simpa [hslot, hmapped] using hpage
      have hunstaged : u.hasSlot n = false := (s.readEnds_hasSlot ..).trans hslot
      have hmay : u.mayCreate n = room := (s.mayCreate_readEnds ..).trans (State.mayCreate_of_no_slot hslot)
      refine ⟨fun hcorrected => ?_, fun hsteady hlost => ?_, fun hsteady htag hnone => ?_⟩
      · rw [State.patrolOutcome_of_corrected hholds hcorrected]
        refine ⟨fun hroom k hk => ?_, fun hroom => ?_⟩
        · rw [State.weakened_of_staged hcalm (hmay.trans hroom) (hfree.trans hk), hlisted]
          refine settlesTo_next ?_
          rw [State.staged_link]
          split
          · exact hlink
          · exact hsofter
        · rw [State.weakened_of_refused (hmay.trans hroom) hunstaged, hlisted, hlist]
          refine settlesTo_next ?_
          split
          · exact hlink
          · exact hsofter
      · rw [State.patrolOutcome_of_lost hholds hsteady hlost]
        refine ⟨fun hroom k hk => ?_, fun hroom => ?_⟩
        · rw [State.newlyLost_of_staged hcalm (hmay.trans hroom) (hfree.trans hk)]
          exact settlesTo_next hlink
        · rw [State.newlyLost_of_refused (hmay.trans hroom)]
          exact settlesTo_next hlink
      · rw [State.patrolOutcome_of_sound hholds hsteady htag hnone]
        refine ⟨fun hroom k hk m hm => ?_, fun hrefused => ?_⟩
        · rw [State.sound_of_staged hcalm (hmay.trans hroom) (hfree.trans hk) (htarget.trans hm)]
          exact settlesTo_next hlink
        · rw [State.sound_of_refused (hrefused.imp hmay.trans htarget.trans)]
          exact settlesTo_next hlink

end Sys2Proof.Machine
end

section
/-! PROOFS. The supply and the state right after reset: power-on and the loss of power leave the cold part for the levels
of the pins, and the reset state is the cold part with the mount just begun. -/

namespace Sys2Proof.Machine

variable {s : State}

/-! ### Power comes (09 R138) -/

theorem State.cleared_powerUp (s : State) (straps : Straps) (pwarn wprot : Bool) :
    (s.powerUp straps pwarn wprot).Cleared straps :=
  State.cleared_of_around (t := s.powerUp straps pwarn wprot)
    (pins := { straps := straps, resetAsserted := false, pwarn := pwarn, wprot := wprot }) rfl

theorem State.allOnline_powerUp (s : State) (straps : Straps) (pwarn wprot : Bool) :
    (s.powerUp straps pwarn wprot).AllOnline := fun l => by cases l <;> rfl

/-! ### Power is gone (09 R139; log 24) -/

theorem exec_powerLoss (h : s.powered = true) : exec .powerLoss s = .next s.powerDown := if_pos h

/-- Whether power is applied is no block's state. -/
theorem State.Cleared.withPower {straps : Straps} (h : s.Cleared straps) (powered : Bool) :
    ({ s with powered := powered } : State).Cleared straps := h

theorem State.cleared_powerDown (s : State) : s.powerDown.Cleared s.pins.straps :=
  (State.cleared_of_around (t := { s.powerDown with powered := true }) (pins := s.pins) rfl).withPower false

theorem State.allOnline_powerDown (s : State) : s.powerDown.AllOnline := fun l => by cases l <;> rfl

/-- Settles O4: each of the two states is the cold part, with what the supply sets beside it. -/
theorem supplyClearsEveryBlock : Obligations.SupplyClearsEveryBlock := by
  refine ⟨fun straps pwarn wprot s => ?_, fun s hpower => ?_⟩
  · exact ⟨_, rfl, s.cleared_powerUp straps pwarn wprot, s.allOnline_powerUp straps pwarn wprot, rfl, rfl, rfl, rfl, rfl,
      rfl, rfl, rfl⟩
  · exact ⟨_, exec_powerLoss hpower, rfl, rfl, s.cleared_powerDown, s.allOnline_powerDown, rfl, rfl, rfl, rfl, rfl, rfl⟩

/-! ### The state right after reset (log 5) -/

theorem State.cleared_reset : State.reset.Cleared State.reset.pins.straps :=
  State.cleared_of_around (t := State.reset) (pins := resetPins) rfl

/-- With no claim on any lane, no slot in the queue and no mark to make, the claims are those the state asks for. -/
theorem State.claims_follow_of_bare (hclaims : ∀ l, (s.lane l).claims = []) (hmode : s.mode ≠ .run)
    (hqueue : s.commitQueue = []) :
    s.CommitClaimsFollow ∧ s.MarkClaimsFollow ∧ s.RelocationClaimsFollow := by
  refine ⟨fun l => ?_, fun l => ?_, fun ⟨l, hl⟩ => ?_, fun _ hrun => absurd hrun hmode⟩
  · rw [hclaims, hqueue]; rfl
  · simp [hclaims, State.wantsMark, hmode]
  · simp [hclaims] at hl

/-- Settles O6: the blocks are those of the cold part, the bounds hold of empty lists, and no claim stands in MOUNTING. -/
theorem resetStateIsMountBegun : Obligations.ResetStateIsMountBegun := by
  obtain ⟨hcommit, hmark, hreloc⟩ := State.claims_follow_of_bare (s := State.reset) (fun l => by cases l <;> rfl)
    (by decide) rfl
  exact ⟨State.cleared_reset, fun l => by cases l <;> rfl, rfl, rfl, rfl, ⟨Nat.zero_le _, Nat.zero_le _⟩, rfl,
    Nat.zero_le _, ⟨Nat.zero_le _, Nat.zero_le _⟩, fun h => absurd rfl h, ⟨rfl, rfl⟩, rfl, hcommit, hmark, hreloc⟩

end Sys2Proof.Machine
end

section
/-! PROOFS. A programmed system record reads back: its tag, its 64 bytes through the check unit, and each field of the
record for a legal configuration (12 R176, 09 R141). -/

namespace Sys2Proof.Machine

variable {g : Geometry} {c : WorkCfg} {base seq wear : Nat}

/-! ### The windows of a record -/

theorem CommitMode.ofCode_code (m : CommitMode) : CommitMode.ofCode m.code = some m := by cases m <;> rfl

theorem Protection.rank_lt (p : Protection) : p.rank < 256 := by cases p <;> decide

theorem CommitMode.code_lt (m : CommitMode) : m.code < 256 := by cases m <;> decide

theorem length_windowBytes (w : Window) : (windowBytes w).length = 6 := rfl

theorem readWindow_windowBytes {w : Window} (hfirst : w.first < 65536) (hlast : w.last < 65536) :
    readWindow (windowBytes w) = some w := by
  have h1 : beNat ((windowBytes w).take 2) = w.first := beNat_beBytes_of_lt (n := 2) hfirst
  have h2 : beNat (((windowBytes w).drop 2).take 2) = w.last := beNat_beBytes_of_lt (n := 2) hlast
  have h3 : beNat (((windowBytes w).drop 4).take 1) = w.protection.rank := beNat_beBytes_of_lt (n := 1) w.protection.rank_lt
  have h4 : beNat (((windowBytes w).drop 5).take 1) = w.commitMode.code := beNat_beBytes_of_lt (n := 1) w.commitMode.code_lt
  rw [readWindow, h1, h2, h3, h4, Protection.ofCode_rank, CommitMode.ofCode_code]

/-! ### The fields of a record -/

/-- A configuration whose parameters are in range and whose windows fit their fields. -/
structure WorkCfg.Legal (c : WorkCfg) (g : Geometry) : Prop where
  capacity : capacityOk g c.capacity = true
  wearLimit : wearLimitOk c.wearLimit = true
  softLimit : softLimitOk c.softLimit = true
  migThreshold : migThresholdOk c.migThreshold = true
  holdTime : holdTimeOk c.holdTime = true
  patrolInterval : patrolIntervalOk c.patrolInterval = true
  reserveFloor : reserveFloorOk c.reserveFloor = true
  progLimit : progLimitOk c.progLimit = true
  windows : c.windows.length = 4
  pages : ∀ w ∈ c.windows, w.first < 65536 ∧ w.last < 65536

theorem Geometry.code_lt (g : Geometry) : g.code < 256 := by
  obtain ⟨two, size⟩ := g
  cases two <;> cases size <;> decide

theorem Geometry.maxCapacity_lt (g : Geometry) : g.maxCapacity < 65536 := by
  obtain ⟨two, size⟩ := g
  cases two <;> cases size <;> decide

/-- Every field of a legal configuration fits its bytes (12 Table 12.3). -/
theorem WorkCfg.Legal.fits (h : c.Legal g) :
    c.capacity < 256 ^ 2 ∧ c.wearLimit < 256 ^ 3 ∧ c.softLimit < 256 ^ 1 ∧ c.migThreshold < 256 ^ 3 ∧
      c.holdTime < 256 ^ 2 ∧ c.patrolInterval < 256 ^ 2 ∧ c.reserveFloor < 256 ^ 1 ∧ c.progLimit < 256 ^ 1 ∧
      c.attnMask.toNat < 512 := by
  obtain ⟨hcapacity, hwear, hsoft, hmig, hhold, hpatrol, hfloor, hprog, -, -⟩ := h
  have hmax := g.maxCapacity_lt
  have hmask := c.attnMask.isLt
  simp [capacityOk, wearLimitOk, softLimitOk, migThresholdOk, holdTimeOk, patrolIntervalOk, reserveFloorOk,
    progLimitOk] at *
  omega

/-- Bytes 0 to 18 of a record: what stands before the windows. -/
def recordHead (g : Geometry) (c : WorkCfg) : List Byte :=
  [recordVersion] ++ (beBytes 1 g.code ++ (beBytes 2 c.capacity ++ (beBytes 3 c.wearLimit ++ (beBytes 1 c.softLimit ++
    (beBytes 3 c.migThreshold ++ (beBytes 2 c.holdTime ++ (beBytes 2 c.patrolInterval ++ (beBytes 1 c.reserveFloor ++
      (beBytes 1 c.progLimit ++ beBytes 2 c.attnMask.toNat)))))))))

theorem length_recordHead : (recordHead g c).length = 19 := rfl

theorem recordBody_eq : recordBody g c base =
    recordHead g c ++ (c.windows.flatMap windowBytes ++ (beBytes 6 base ++ List.replicate 13 0#8)) := by
  simp only [recordBody, recordHead, List.append_assoc]

theorem length_windows (h : c.windows.length = 4) : (c.windows.flatMap windowBytes).length = 24 := by
  obtain ⟨w0, w1, w2, w3, hw⟩ := List.length_eq_four.1 h
  rw [hw]
  rfl

theorem length_recordBody (h : c.windows.length = 4) : (recordBody g c base).length = 62 := by
  rw [recordBody_eq, List.length_append, length_recordHead, List.length_append, length_windows h]
  rfl

theorem length_recordData (h : c.windows.length = 4) : (recordData g c base).length = 64 := by
  rw [recordData, List.length_append, length_recordBody h]
  rfl

theorem take_recordData (h : c.windows.length = 4) : (recordData g c base).take 62 = recordBody g c base :=
  List.take_left' (length_recordBody h)

theorem crcField_recordData (h : c.windows.length = 4) :
    BitVec.ofNat 16 (field (recordData g c base) 62 2) = crc16 (recordBody g c base) := by
  rw [field, recordData, List.drop_left' (length_recordBody h), List.take_of_length_le (Nat.le_refl 2),
    beNat_beBytes_of_lt (crc16 (recordBody g c base)).isLt, BitVec.ofNat_toNat, BitVec.setWidth_eq]

/-- The head, the windows and the format base of a record, each behind the one before. -/
theorem recordData_eq : ∃ rest, recordData g c base =
    recordHead g c ++ (c.windows.flatMap windowBytes ++ (beBytes 6 base ++ rest)) := by
  refine ⟨List.replicate 13 0#8 ++ beBytes 2 (crc16 (recordBody g c base)).toNat, ?_⟩
  rw [recordData]
  generalize beBytes 2 (crc16 (recordBody g c base)).toNat = crc
  rw [recordBody_eq]
  simp only [List.append_assoc]

theorem field_head {off n : Nat} (h : off + n ≤ 19) :
    field (recordData g c base) off n = beNat (((recordHead g c).drop off).take n) := by
  obtain ⟨rest, heq⟩ := recordData_eq (g := g) (c := c) (base := base)
  rw [heq, field, List.drop_append_of_le_length (by rw [length_recordHead]; omega),
    List.take_append_of_le_length (by rw [List.length_drop, length_recordHead]; omega)]

theorem field_base (h : c.windows.length = 4) (hbase : base < 2 ^ 48) : field (recordData g c base) 43 6 = base := by
  obtain ⟨rest, heq⟩ := recordData_eq (g := g) (c := c) (base := base)
  have hbefore : (recordHead g c ++ c.windows.flatMap windowBytes).length = 43 := by
    rw [List.length_append, length_recordHead, length_windows h]
  rw [heq, field, ← List.append_assoc, List.drop_left' hbefore]
  exact beNat_beBytes_of_lt (n := 6) hbase

/-- The six bytes of a window behind any others. -/
theorem readWindow_behind {pre post bs : List Byte} {off : Nat} {w : Window} (heq : bs = pre ++ (windowBytes w ++ post))
    (hoff : pre.length = off) (hfirst : w.first < 65536) (hlast : w.last < 65536) :
    readWindow ((bs.drop off).take 6) = some w := by
  rw [heq, List.drop_left' hoff, List.take_left' (length_windowBytes w), readWindow_windowBytes hfirst hlast]

theorem recordWindows_recordData (h : c.Legal g) : recordWindows (recordData g c base) = some c.windows := by
  obtain ⟨rest, heq⟩ := recordData_eq (g := g) (c := c) (base := base)
  obtain ⟨w0, w1, w2, w3, hfour⟩ := List.length_eq_four.1 h.windows
  have hpages := h.pages
  rw [hfour] at heq hpages ⊢
  simp only [List.forall_mem_cons] at hpages
  obtain ⟨⟨f0, l0⟩, ⟨f1, l1⟩, ⟨f2, l2⟩, ⟨f3, l3⟩, -⟩ := hpages
  simp only [List.flatMap_cons, List.append_assoc] at heq
  have heq1 := heq.trans (List.append_assoc ..).symm
  have heq2 := heq1.trans (List.append_assoc ..).symm
  have heq3 := heq2.trans (List.append_assoc ..).symm
  have h0 : readWindow (((recordData g c base).drop 19).take 6) = some w0 := readWindow_behind heq rfl f0 l0
  have h1 : readWindow (((recordData g c base).drop 25).take 6) = some w1 := readWindow_behind heq1 rfl f1 l1
  have h2 : readWindow (((recordData g c base).drop 31).take 6) = some w2 := readWindow_behind heq2 rfl f2 l2
  have h3 : readWindow (((recordData g c base).drop 37).take 6) = some w3 := readWindow_behind heq3 rfl f3 l3
  simp only [recordWindows, h0, h1, h2, h3]

/-- Reading the bytes of a record of a legal configuration gives the configuration and the format base. -/
theorem readRecord_recordData (h : c.Legal g) (hbase : base < 2 ^ 48) :
    readRecord g (recordData g c base) = some (c, base) := by
  obtain ⟨hcapacity, hwear, hsoft, hmig, hhold, hpatrol, hfloor, hprog, hmask⟩ := h.fits
  have f0 : (recordData g c base).getD 0 0#8 = recordVersion := rfl
  have f1 : field (recordData g c base) 1 1 = g.code :=
    (field_head (by decide)).trans (beNat_beBytes_of_lt (n := 1) g.code_lt)
  have f2 : field (recordData g c base) 2 2 = c.capacity :=
    (field_head (by decide)).trans (beNat_beBytes_of_lt (n := 2) hcapacity)
  have f4 : field (recordData g c base) 4 3 = c.wearLimit :=
    (field_head (by decide)).trans (beNat_beBytes_of_lt (n := 3) hwear)
  have f7 : field (recordData g c base) 7 1 = c.softLimit :=
    (field_head (by decide)).trans (beNat_beBytes_of_lt (n := 1) hsoft)
  have f8 : field (recordData g c base) 8 3 = c.migThreshold :=
    (field_head (by decide)).trans (beNat_beBytes_of_lt (n := 3) hmig)
  have f11 : field (recordData g c base) 11 2 = c.holdTime :=
    (field_head (by decide)).trans (beNat_beBytes_of_lt (n := 2) hhold)
  have f13 : field (recordData g c base) 13 2 = c.patrolInterval :=
    (field_head (by decide)).trans (beNat_beBytes_of_lt (n := 2) hpatrol)
  have f15 : field (recordData g c base) 15 1 = c.reserveFloor :=
    (field_head (by decide)).trans (beNat_beBytes_of_lt (n := 1) hfloor)
  have f16 : field (recordData g c base) 16 1 = c.progLimit :=
    (field_head (by decide)).trans (beNat_beBytes_of_lt (n := 1) hprog)
  have f17 : field (recordData g c base) 17 2 = c.attnMask.toNat :=
    (field_head (by decide)).trans (beNat_beBytes_of_lt (n := 2) (by omega))
  have hvalid : attnMaskOk c.attnMask.toNat = true := decide_eq_true hmask
  simp only [readRecord, recordWindows_recordData h, take_recordData h.windows, crcField_recordData h.windows,
    field_base h.windows hbase, f0, f1, f2, f4, f7, f8, f11, f13, f15, f16, f17, h.capacity, h.wearLimit, h.softLimit,
    h.migThreshold, h.holdTime, h.reserveFloor, h.progLimit, hvalid, and_self, if_true, BitVec.ofNat_toNat,
    BitVec.setWidth_eq]

/-! ### The page of a record -/

theorem recordTag_fits (hseq : seq < 2 ^ 48) (hwear : wear < 2 ^ 24) : (recordTag seq wear).Fits :=
  ⟨Nat.zero_lt_succ _, hseq, hwear, Nat.zero_lt_succ _⟩

theorem decodePage_pageImage {data : List Byte} (t : Tag) (h : data.length = 64) :
    decodePage (pageImage data t) = (List.range 8).map fun i => (.clean, codeword data i) :=
  List.map_congr_left fun _ hi => decodeCodeword_pageImage h (List.mem_range.1 hi)

/-- Settles O14: the tag is read as written, the data bytes come back CLEAN, and the record in them is valid. -/
theorem recordReadsBack : Obligations.RecordReadsBack := by
  intro g c base seq wear hcapacity hwearLimit hsoft hmig hhold hpatrol hfloor hprog hwindows hpages hbase hseq hwear
  have hlegal : c.Legal g :=
    ⟨hcapacity, hwearLimit, hsoft, hmig, hhold, hpatrol, hfloor, hprog, hwindows, hpages⟩
  have hdata : (recordData g c base).length = 64 := length_recordData hwindows
  have htag : readTag (tagBytes (recordImage g c base seq wear)) = .good (recordTag seq wear) := by
    rw [recordImage, tagBytes_pageImage _ hdata, readTag_bytes (by decide : kindSystem ≠ erasedByte) (recordTag_fits hseq hwear)]
  have hclean : (decodePage (recordImage g c base seq wear)).all (fun w => w.1 != .uncorrectable) = true := by
    rw [recordImage, decodePage_pageImage _ hdata]
    simp
  have hback : (decodePage (recordImage g c base seq wear)).flatMap (·.2) = recordData g c base := by
    rw [recordImage, decodePage_pageImage _ hdata, List.flatMap_map, flatMap_codeword, List.take_of_length_le hdata.le]
  have hkind : (recordTag seq wear).kind = kindSystem := rfl
  simp only [foundRecord, htag, hkind, hclean, hback, readRecord_recordData hlegal hbase, and_self, if_true,
    Option.map_some]
  rfl

end Sys2Proof.Machine
end

section
/-! PROOFS. The mount up to its scan: a lane's wait for ready ends, the two system pages are read in turn, and the record
of the higher sequence, or the defaults, is loaded as the scan begins (09 R139 to R143). -/

namespace Sys2Proof.Machine

variable {s : State} {m : Mount} {l : LaneId} {bytes : List Byte}

/-! ### What the mount holds for a lane -/

@[simp] theorem Mount.scan_setScan (m : Mount) (l : LaneId) (x : LaneScan) : (m.setScan l x).scan l = x := by
  cases l <;> rfl

@[simp] theorem Mount.scan_setScan_other (m : Mount) (l : LaneId) (x : LaneScan) :
    (m.setScan l x).scan l.other = m.scan l.other := by cases l <;> rfl

/-! ### Phase WAIT (09 R139, R140) -/

theorem exec_mountWaitReady (hop : (s.lane l).op = none) (hmount : s.mount = some m) (hphase : m.phase = .wait)
    (hwaiting : (m.scan l).waiting = true) : exec (.mountWaitReady l) s =
      .next ((s.modLane l (fun x => { x with ready := true })).waitAdvance
        (m.setScan l { m.scan l with waiting := false })).settle := by
  change execMountWaitReady l s = _
  simp [execMountWaitReady, State.mountReady, hmount, hphase, hwaiting, hop]

theorem State.waitAdvance_of_waiting (h : (m.scan l).waiting = true) :
    s.waitAdvance m = { s with mount := some m } := by
  cases l
  · exact if_pos (Bool.or_eq_true_iff.2 (.inl h))
  · exact if_pos (Bool.or_eq_true_iff.2 (.inr h))

/-- The wait of the last lane is over. -/
theorem Mount.waits_over (h : (m.scan l).waiting = false) (hother : (m.scan l.other).waiting = false) :
    ¬ (m.scanA.waiting || m.scanB.waiting) = true := by
  have hboth : m.scanA.waiting = false ∧ m.scanB.waiting = false := by cases l <;> [exact ⟨h, hother⟩; exact ⟨hother, h⟩]
  simp [hboth.1, hboth.2]

theorem State.waitAdvance_of_laneA (hover : ¬ (m.scanA.waiting || m.scanB.waiting) = true)
    (hlane : s.laneA.online = true) :
    s.waitAdvance m = { s with mount := some { m with phase := .record, sysPage := 0 } } := by
  rw [State.waitAdvance, if_neg hover, if_pos hlane]

theorem State.waitAdvance_of_no_laneA (hover : ¬ (m.scanA.waiting || m.scanB.waiting) = true)
    (hlane : s.laneA.online = false) : s.waitAdvance m = s.endRecord m := by
  rw [State.waitAdvance, if_neg hover, if_neg (by simp [hlane])]

/-! ### The selection, and the start of the scan (09 R142, R143) -/

/-- The configuration in force after the selection. -/
def State.cfgSelected (s : State) (m : Mount) : WorkCfg :=
  match m.selected with
  | some f => f.1.cfg
  | none => defaultCfg s.geometry

theorem State.loadRecord_eq (s : State) (m : Mount) : s.loadRecord m =
    { s with
      cfg := s.cfgSelected m
      formatBase := (match m.selected with | some f => f.1.base | none => 0)
      newestRecord := m.selected.map (·.2)
      blank := m.selected.isNone
      remap := List.replicate (s.cfgSelected m).capacity .unmapped } := by
  unfold State.loadRecord State.cfgSelected
  cases m.selected <;> rfl

/-- The scan begins on each ONLINE lane (09 R143). -/
def Mount.scanning (m : Mount) (a b : Bool) : Mount :=
  { m with
    phase := .scan
    scanA := { m.scanA with reading := if a then some 2 else none }
    scanB := { m.scanB with reading := if b then some 0 else none } }

theorem State.enterScan_of_online (h : (s.laneA.online || s.laneB.online) = true) :
    s.enterScan m = { s with mount := some (m.scanning s.laneA.online s.laneB.online) } := by
  unfold State.enterScan
  refine if_neg fun hnone => ?_
  cases ha : s.laneA.online <;> cases hb : s.laneB.online <;> simp_all

theorem State.endRecord_of_online (h : (s.laneA.online || s.laneB.online) = true) : s.endRecord m =
    { s with
      cfg := s.cfgSelected m
      formatBase := (match m.selected with | some f => f.1.base | none => 0)
      newestRecord := m.selected.map (·.2)
      blank := m.selected.isNone
      remap := List.replicate (s.cfgSelected m).capacity .unmapped
      mount := some (m.scanning s.laneA.online s.laneB.online) } := by
  rw [State.endRecord, State.loadRecord_eq]
  exact State.enterScan_of_online h

/-! ### Phase RECORD (09 R141) -/

theorem exec_systemPageReadDone (hbytes : bytes.length = 88) :
    exec (.systemPageReadDone bytes) s = .next (s.systemRead bytes).settle := if_pos hbytes

theorem seqSeen_good (o : Option Nat) (t : Tag) :
    seqSeen o (.good t) = some (match o with | none => t.seq | some h => max h t.seq) := by
  cases o <;> rfl

theorem seqSeen_eq (o : Option Nat) (tr : TagRead) : seqSeen o tr =
    match tr with
    | .good t => some (match o with | none => t.seq | some h => max h t.seq)
    | _ => o := by
  cases tr with
  | good t => exact seqSeen_good o t
  | blank => rfl
  | badCrc => rfl

/-- The mount after a system page, whose record is still to be noted. -/
def Mount.systemSeen (m : Mount) (bytes : List Byte) : Mount :=
  { m with seqHigh := seqSeen m.seqHigh (readTag (tagBytes bytes)) }

/-- The page table after a system page. -/
def State.systemNoted (s : State) (i : Nat) (bytes : List Byte) : State :=
  s.setPage { lane := .a, index := i } (systemRec (readTag (tagBytes bytes)))

theorem State.systemRead_first (hmount : s.mount = some m) (hphase : m.phase = .record) (hpage : m.sysPage = 0) :
    s.systemRead bytes = { s.systemNoted m.sysPage bytes with
      mount := some { m.systemSeen bytes with sysPage := 1, found0 := foundRecord s.geometry bytes } } := by
  rw [State.systemRead, hmount]
  exact (if_pos hphase).trans (if_pos hpage)

theorem State.systemRead_second (hmount : s.mount = some m) (hphase : m.phase = .record) (hpage : m.sysPage = 1) :
    s.systemRead bytes =
      (s.systemNoted m.sysPage bytes).endRecord { m.systemSeen bytes with found1 := foundRecord s.geometry bytes } := by
  rw [State.systemRead, hmount]
  exact (if_pos hphase).trans (if_neg (by omega))

/-- Settles O50: the three ways on from phase WAIT, then the first and the second system page. -/
theorem mountReadsRecords : Obligations.MountReadsRecords := by
  refine ⟨fun s l hq hop m hmount hphase hwaiting => ?_, fun s bytes hq hbytes hlane m hmount hphase => ?_⟩
  · rw [exec_mountWaitReady hop hmount hphase hwaiting]
    generalize hn : m.setScan l { m.scan l with waiting := false } = n
    have hself : (n.scan l).waiting = false := by rw [← hn, Mount.scan_setScan]
    have hother : (n.scan l.other).waiting = (m.scan l.other).waiting := by rw [← hn, Mount.scan_setScan_other]
    have hlanes : ∀ k, ((s.modLane l (fun x => { x with ready := true })).lane k).online = (s.lane k).online := by
      intro k; cases l <;> cases k <;> rfl
    refine ⟨fun hwait => ?_, fun hdone honline => ?_, fun hdone hoffline h0 h1 hb => ?_⟩
    · rw [State.waitAdvance_of_waiting (hother.trans hwait)]
      exact settlesTo_next hq.2
    · rw [State.waitAdvance_of_laneA (Mount.waits_over hself (hother.trans hdone)) ((hlanes .a).trans honline)]
      exact settlesTo_next hq.2
    · have hnone : n.selected = none := by
        subst hn
        simp only [Mount.selected, Mount.setScan, h0, h1]
      have ha := (hlanes .a).trans hoffline
      have hb := (hlanes .b).trans hb
      simp only [State.lane_a, State.lane_b] at ha hb
      rw [State.waitAdvance_of_no_laneA (Mount.waits_over hself (hother.trans hdone)) ha,
        State.endRecord_of_online (by simp [hb]), ha, hb, State.cfgSelected, hnone]
      exact settlesTo_next hq.2
  · intro found wear seen u
    rw [exec_systemPageReadDone hbytes]
    have hrec : systemRec (readTag (tagBytes bytes)) = { state := .system, wear := wear, soft := 0 } := rfl
    have hseen : seqSeen m.seqHigh (readTag (tagBytes bytes)) = seen := seqSeen_eq ..
    refine ⟨fun hpage => ?_, fun hpage => ?_⟩
    · rw [State.systemRead_first hmount hphase hpage, State.systemNoted, Mount.systemSeen, hrec, hseen]
      exact settlesTo_next hq.2
    · intro chosen cfg
      have honline : (u.laneA.online || u.laneB.online) = true := Bool.or_eq_true_iff.2 (.inl hlane)
      have ha : u.laneA.online = true := hlane
      rw [State.systemRead_second hmount hphase hpage, State.systemNoted, hrec, Mount.systemSeen, hseen,
        State.endRecord_of_online honline, ha]
      exact settlesTo_next hq.2

end Sys2Proof.Machine
end

section
/-! PROOFS. One page of the scan: the class its tag gives it, the counts it takes, what the mount holds of it, and the way
on to the next page (09 R143 to R145). -/

namespace Sys2Proof.Machine

variable {s : State} {m : Mount} {l : LaneId} {bytes : List Byte} {i : Nat} {p : PPage} {t : Tag}

/-! ### The class of a tag (09 R144, Table 12.2) -/

theorem TagRead.eq_good {r : TagRead} (h : r.tag? = some t) : r = .good t := by
  cases r <;> simp_all [TagRead.tag?]

theorem State.classify_blank (h : readTag (tagBytes bytes) = .blank) : s.classify bytes = none := by
  rw [State.classify, h]

theorem State.classify_badCrc (h : readTag (tagBytes bytes) = .badCrc) :
    s.classify bytes = some (.suspect true, some 1) := by
  rw [State.classify, h]
  rfl

theorem State.classify_system (h : readTag (tagBytes bytes) = .good t) (hkind : t.kind = 0x0E#8) :
    s.classify bytes = some (.suspect false, some 2) := by
  rw [State.classify, h]
  exact if_pos hkind

theorem State.classify_retired (h : readTag (tagBytes bytes) = .good t) (hkind : t.kind = 0x0C#8) :
    s.classify bytes = some (.retired, none) := by
  rw [State.classify, h]
  simp [hkind, kindSystem, kindRetired]

theorem isDataKind_iff (k : Byte) : isDataKind k = true ↔ k = 0x01#8 ∨ k = 0x02#8 ∨ k = 0x03#8 := by
  simp [isDataKind, kindDataHost, kindDataRelocate, kindDataMigrate, or_assoc]

/-- The class of a tag of a DATA kind: STALE, or a candidate. -/
theorem State.classify_data (h : readTag (tagBytes bytes) = .good t)
    (hkind : t.kind = 0x01#8 ∨ t.kind = 0x02#8 ∨ t.kind = 0x03#8) : s.classify bytes =
      if s.cfg.capacity ≤ t.logical ∨ t.seq < s.formatBase then some (.stale, none)
      else some (.candidate t.logical t.seq (intactCopy bytes t.poison), none) := by
  have hdata : isDataKind t.kind = true := (isDataKind_iff t.kind).2 hkind
  have hsystem : t.kind ≠ kindSystem := by rcases hkind with h | h | h <;> rw [h] <;> decide
  have hretired : t.kind ≠ kindRetired := by rcases hkind with h | h | h <;> rw [h] <;> decide
  rw [State.classify, h]
  exact (if_neg hsystem).trans ((if_neg hretired).trans (if_pos hdata))

theorem State.classify_unknown (h : readTag (tagBytes bytes) = .good t) (hsystem : t.kind ≠ 0x0E#8)
    (hretired : t.kind ≠ 0x0C#8) (hdata : ¬ (t.kind = 0x01#8 ∨ t.kind = 0x02#8 ∨ t.kind = 0x03#8)) :
    s.classify bytes = some (.suspect false, some 3) := by
  rw [State.classify, h]
  exact (if_neg hsystem).trans ((if_neg hretired).trans (if_neg (mt (isDataKind_iff t.kind).1 hdata)))

theorem intactCopy_eq (bytes : List Byte) (poison : BitVec 8) : intactCopy bytes poison =
    (List.range 8).all (fun j => poison.getLsbD j ||
      (decodeCodeword (codeword bytes j) (bytes.getD (64 + j) 0#8)).1 != .uncorrectable) := by
  rw [intactCopy, Bool.eq_iff_iff, List.all_eq_true, List.all_eq_true]
  exact forall₂_congr fun j hj => by rw [getD_decodePage bytes (List.mem_range.1 hj)]

/-! ### What the mount and the state hold after a page (09 R144, R145) -/

theorem Mount.addClass_noted (m : Mount) (p : PPage) (cls : PageClass) (d : Nat) : m.addClass p (some (cls, some d)) =
    { m with classed := m.classed ++ [{ page := p, cls := cls }], suspectSeen := true } := by
  simp [Mount.addClass]

theorem Mount.addClass_silent (m : Mount) (p : PPage) (cls : PageClass) : m.addClass p (some (cls, none)) =
    { m with classed := m.classed ++ [{ page := p, cls := cls }] } := by
  simp [Mount.addClass]

theorem State.noteClass_noted (hroom : s.notices.length < 32) (p : PPage) (cls : PageClass) (d : Nat) :
    s.noteClass p (some (cls, some d)) = { s with notices := s.notices ++ [suspectNotice p d] } :=
  State.give_of_room hroom _

@[simp] theorem State.noteClass_link (s : State) (p : PPage) (c : Option (PageClass × Option Nat)) :
    (s.noteClass p c).link = s.link := by
  unfold State.noteClass
  split <;> rfl

/-- The class a page takes in the scan: on a kept mark list it is no candidate and gives no notice (log 26). -/
def State.scanClass (s : State) (p : PPage) (bytes : List Byte) : Option (PageClass × Option Nat) :=
  if (s.lane p.lane).markList.contains p.index then markedClass (s.classify bytes) else s.classify bytes

/-- The mount after a page of class c was read, with the next page of the lane to read. -/
def Mount.scanned (m : Mount) (p : PPage) (c : Option (PageClass × Option Nat)) (tr : TagRead) (next : Option Nat) :
    Mount :=
  let m1 := { (m.addClass p c) with seqHigh := seqSeen m.seqHigh tr }
  m1.setScan p.lane { m1.scan p.lane with reading := next, wearHigh := wearSeen (m1.scan p.lane).wearHigh tr }

theorem Mount.scan_addClass (m : Mount) (p : PPage) (c : Option (PageClass × Option Nat)) (l : LaneId) :
    (m.addClass p c).scan l = m.scan l := by
  cases c <;> cases l <;> rfl

@[simp] theorem Mount.scan_scanned (m : Mount) (p : PPage) (c : Option (PageClass × Option Nat)) (tr : TagRead)
    (next : Option Nat) : (m.scanned p c tr next).scan p.lane =
      { m.scan p.lane with reading := next, wearHigh := wearSeen (m.scan p.lane).wearHigh tr } := by
  rw [Mount.scanned, Mount.scan_setScan, ← m.scan_addClass p c]
  cases p.lane <;> rfl

@[simp] theorem Mount.scan_scanned_other (m : Mount) (p : PPage) (c : Option (PageClass × Option Nat)) (tr : TagRead)
    (next : Option Nat) : (m.scanned p c tr next).scan p.lane.other = m.scan p.lane.other := by
  rw [Mount.scanned, Mount.scan_setScan_other, ← m.scan_addClass p c]
  cases p.lane <;> rfl

/-- The record and the notice of a page that was read. -/
def State.pageScanned (s : State) (p : PPage) (bytes : List Byte) : State :=
  (s.setPage p (scannedRec (readTag (tagBytes bytes)))).noteClass p (s.scanClass p bytes)

theorem State.scanRead_eq (hmount : s.mount = some m) (hphase : m.phase = .scan)
    (hreading : (m.scan l).reading = some i) : s.scanRead l bytes =
      (s.pageScanned { lane := l, index := i } bytes).scanOnward
        (m.scanned { lane := l, index := i } (s.scanClass { lane := l, index := i } bytes) (readTag (tagBytes bytes))
          (if i + 1 < s.geometry.pagesPerLane then some (i + 1) else none)) l := by
  simp only [State.scanRead, hmount, hreading]
  exact if_pos hphase

theorem exec_scanReadDone (hbytes : bytes.length = 88) :
    exec (.scanReadDone l bytes) s = .next (s.scanRead l bytes).settle := if_pos hbytes

/-! ### The way on (09 R143) -/

theorem State.scanAdvance_of_reading {k : LaneId} (h : (m.scan k).reading.isSome = true) :
    s.scanAdvance m = { s with mount := some m } := by
  refine if_neg fun hnone => ?_
  cases k <;> simp_all [Mount.scan]

theorem State.scanOnward_of_reading (h : (m.scan l).reading.isSome = true) :
    s.scanOnward m l = { s with mount := some m } := by
  rw [State.scanOnward, if_neg (by simpa using Option.isSome_iff_ne_none.1 h), State.scanAdvance_of_reading h]

theorem State.scanOnward_of_ended (h : (m.scan l).reading = none) :
    s.scanOnward m l = (s.settleSuspects m l).scanAdvance m := if_pos (by rw [h]; rfl)

/-- The scan goes on to the next page of the lane. -/
theorem settlesTo_scanReadDone (hq : s.Quiet) (hbytes : bytes.length = 88) (hmount : s.mount = some m)
    (hphase : m.phase = .scan) (hreading : (m.scan l).reading = some i) (hnext : i + 1 < s.geometry.pagesPerLane)
    (hmark : i ∉ (s.lane l).markList) :
    SettlesTo (exec (.scanReadDone l bytes) s)
      { (s.setPage { lane := l, index := i } (scannedRec (readTag (tagBytes bytes)))).noteClass
          { lane := l, index := i } (s.classify bytes) with
        mount := some (m.scanned { lane := l, index := i } (s.classify bytes) (readTag (tagBytes bytes)) (some (i + 1))) } := by
  have hclass : s.scanClass { lane := l, index := i } bytes = s.classify bytes :=
    if_neg (by simpa using hmark)
  rw [exec_scanReadDone hbytes, State.scanRead_eq hmount hphase hreading, if_pos hnext, hclass,
    State.scanOnward_of_reading (by rw [Mount.scan_scanned]; rfl), State.pageScanned, hclass]
  exact settlesTo_next ((State.noteClass_link ..).trans hq.2)

end Sys2Proof.Machine
end

section
/-! PROOFS. What the judgement of pages in a mount leaves as it was: everything but the records of the pages, and in phase
CHOOSE also the map, the notices and their flags. -/

namespace Sys2Proof.Machine

variable {s t u : State} {q : PPage}

/-- Only records of pages changed, and no lane has more or fewer of them. -/
def PagesOnly (s t : State) : Prop :=
  ∃ a b, t = { s with laneA := { s.laneA with pages := a }, laneB := { s.laneB with pages := b } } ∧
    a.length = s.laneA.pages.length ∧ b.length = s.laneB.pages.length

theorem PagesOnly.refl (s : State) : PagesOnly s s := ⟨s.laneA.pages, s.laneB.pages, rfl, rfl, rfl⟩

theorem PagesOnly.trans (h : PagesOnly s t) (g : PagesOnly t u) : PagesOnly s u := by
  obtain ⟨a, b, rfl, ha, hb⟩ := h
  obtain ⟨c, d, rfl, hc, hd⟩ := g
  exact ⟨c, d, rfl, hc.trans ha, hd.trans hb⟩

theorem PagesOnly.foldl {α : Type} {f : State → α → State} (hf : ∀ t a, PagesOnly t (f t a)) (xs : List α) (s : State) :
    PagesOnly s (xs.foldl f s) := by
  induction xs generalizing s with
  | nil => exact .refl s
  | cons a xs ih => exact (hf s a).trans (ih _)

theorem pagesOnly_setPage (s : State) (p : PPage) (r : PageRec) : PagesOnly s (s.setPage p r) := by
  obtain ⟨l, i⟩ := p
  cases l
  · exact ⟨s.laneA.pages.set i r, s.laneB.pages, rfl, List.length_set, rfl⟩
  · exact ⟨s.laneA.pages, s.laneB.pages.set i r, rfl, rfl, List.length_set⟩

/-- Beside records of pages, the map, the notices and their flags changed. -/
def MountOnly (s t : State) : Prop :=
  ∃ u remap notices dropped faults, PagesOnly s u ∧
    t = { u with remap := remap, notices := notices, dropped := dropped, faults := faults }

theorem PagesOnly.mountOnly (h : PagesOnly s t) : MountOnly s t := ⟨t, _, _, _, _, h, rfl⟩

theorem MountOnly.refl (s : State) : MountOnly s s := (PagesOnly.refl s).mountOnly

theorem MountOnly.trans (h : MountOnly s t) (g : MountOnly t u) : MountOnly s u := by
  obtain ⟨v, _, _, _, _, ⟨a, b, rfl, ha, hb⟩, rfl⟩ := h
  obtain ⟨w, _, _, _, _, ⟨c, d, rfl, hc, hd⟩, rfl⟩ := g
  exact ⟨{ s with laneA := { s.laneA with pages := c }, laneB := { s.laneB with pages := d } }, _, _, _, _,
    ⟨c, d, rfl, hc.trans ha, hd.trans hb⟩, rfl⟩

theorem MountOnly.foldl {α : Type} {f : State → α → State} (hf : ∀ t a, MountOnly t (f t a)) (xs : List α) (s : State) :
    MountOnly s (xs.foldl f s) := by
  induction xs generalizing s with
  | nil => exact .refl s
  | cons a xs ih => exact (hf s a).trans (ih _)

theorem mountOnly_give (s : State) (n : Notice) : MountOnly s (s.give n) := ⟨s, _, _, _, _, .refl s, rfl⟩

theorem mountOnly_flag (s : State) (f : FaultFlags → FaultFlags) : MountOnly s (s.flag f) :=
  ⟨s, _, _, _, _, .refl s, rfl⟩

theorem mountOnly_remap (s : State) (r : List RemapEntry) : MountOnly s { s with remap := r } :=
  ⟨s, _, _, _, _, .refl s, rfl⟩

theorem mountOnly_noteClass (s : State) (p : PPage) (c : Option (PageClass × Option Nat)) :
    MountOnly s (s.noteClass p c) := by
  unfold State.noteClass
  split
  · exact mountOnly_give ..
  · exact .refl s

/-- The part's own state beside page tables, map and notices is as it was. -/
theorem MountOnly.fields (h : MountOnly s t) :
    t.mode = s.mode ∧ t.causes = s.causes ∧ t.cfg = s.cfg ∧ t.formatBase = s.formatBase ∧ t.slots = s.slots ∧
      t.link = s.link ∧ t.cursor = s.cursor ∧ t.timer = s.timer ∧ t.longCmd = s.longCmd ∧ t.mount = s.mount := by
  obtain ⟨_, _, _, _, _, ⟨_, _, rfl, -⟩, rfl⟩ := h
  exact ⟨rfl, rfl, rfl, rfl, rfl, rfl, rfl, rfl, rfl, rfl⟩

theorem MountOnly.link (h : MountOnly s t) : t.link = s.link := by
  obtain ⟨_, _, _, _, _, ⟨_, _, rfl, -⟩, rfl⟩ := h; rfl

theorem MountOnly.mode (h : MountOnly s t) : t.mode = s.mode := by
  obtain ⟨_, _, _, _, _, ⟨_, _, rfl, -⟩, rfl⟩ := h; rfl

theorem MountOnly.cfg (h : MountOnly s t) : t.cfg = s.cfg := by
  obtain ⟨_, _, _, _, _, ⟨_, _, rfl, -⟩, rfl⟩ := h; rfl

theorem MountOnly.length (h : MountOnly s t) (l : LaneId) : (t.lane l).pages.length = (s.lane l).pages.length := by
  obtain ⟨_, _, _, _, _, ⟨_, _, rfl, ha, hb⟩, rfl⟩ := h
  cases l
  · exact ha
  · exact hb

/-! ### One page through a series of changes -/

section
variable {α : Type} {f : State → α → State} {xs : List α} {g : PageRec → PageRec}

theorem State.page_foldl_of_not (h : ∀ a ∈ xs, ∀ t : State, (f t a).page q = t.page q) :
    (xs.foldl f s).page q = s.page q := by
  induction xs generalizing s with
  | nil => rfl
  | cons a xs ih =>
    obtain ⟨ha, hxs⟩ := List.forall_mem_cons.1 h
    rw [List.foldl_cons, ih hxs, ha]

/-- Changes that each set the page to g of its record or leave it leave a record that g fixes. -/
theorem State.page_foldl_of_fixed (hf : ∀ t a, MountOnly t (f t a))
    (h : ∀ a ∈ xs, ∀ t, MountOnly s t → (f t a).page q = g (t.page q) ∨ (f t a).page q = t.page q)
    (hfix : g (s.page q) = s.page q) : (xs.foldl f s).page q = s.page q := by
  induction xs generalizing s with
  | nil => rfl
  | cons a xs ih =>
    obtain ⟨ha, hxs⟩ := List.forall_mem_cons.1 h
    have hsame : (f s a).page q = s.page q := (ha s (.refl s)).elim (·.trans hfix) id
    rw [List.foldl_cons, ih (fun b hb t ht => hxs b hb t ((hf s a).trans ht)) (by rw [hsame, hfix]), hsame]

/-- Where one of the changes sets the page to g of its record, and each sets it so or leaves it, it is set so once. -/
theorem State.page_foldl_of_touched (hf : ∀ t a, MountOnly t (f t a)) (hg : ∀ r, g (g r) = g r)
    (h : ∀ a ∈ xs, ∀ t, MountOnly s t → (f t a).page q = g (t.page q) ∨ (f t a).page q = t.page q)
    (htouched : ∃ a ∈ xs, ∀ t, MountOnly s t → (f t a).page q = g (t.page q)) :
    (xs.foldl f s).page q = g (s.page q) := by
  induction xs generalizing s with
  | nil => simp at htouched
  | cons a xs ih =>
    obtain ⟨ha, hxs⟩ := List.forall_mem_cons.1 h
    have hlater : ∀ b ∈ xs, ∀ t, MountOnly (f s a) t → (f t b).page q = g (t.page q) ∨ (f t b).page q = t.page q :=
      fun b hb t ht => hxs b hb t ((hf s a).trans ht)
    rw [List.foldl_cons]
    obtain ⟨b, hb, htouch⟩ := htouched
    rcases List.mem_cons.1 hb with rfl | hb
    · have hset := htouch s (.refl s)
      rw [State.page_foldl_of_fixed hf hlater (by rw [hset, hg]), hset]
    · rw [ih hlater ⟨b, hb, fun t ht => htouch t ((hf s a).trans ht)⟩]
      rcases ha s (.refl s) with hset | hkept
      · rw [hset, hg]
      · rw [hkept]
end

end Sys2Proof.Machine
end

section
/-! PROOFS. The end of a lane's scan: its SUSPECT pages whose CRC failed take the highest wear read on it, by its last page
or by its loss, while the other lane reads on (09 R143, R145). -/

namespace Sys2Proof.Machine

variable {s t u v : State} {m n : Mount} {l : LaneId} {bytes : List Byte} {i wear : Nat} {p q : PPage} {c : Classed}

theorem Settled.mode (h : Settled s t) : t.mode = s.mode := by
  obtain ⟨_, _, _, rfl, -⟩ := h; rfl

theorem Settled.mount (h : Settled s t) : t.mount = s.mount := by
  obtain ⟨_, _, _, rfl, -⟩ := h; rfl

/-! ### One SUSPECT page (09 R145; log 38) -/

/-- The class is that of page q, a SUSPECT page of the lane whose CRC failed. -/
def Classed.unread (c : Classed) (l : LaneId) (q : PPage) : Prop := c.page = q ∧ q.lane = l ∧ c.cls = .suspect true

theorem pagesOnly_settleSuspect (l : LaneId) (wear : Nat) (s : State) (c : Classed) :
    PagesOnly s (s.settleSuspect l wear c) := by
  unfold State.settleSuspect
  split
  · exact pagesOnly_setPage ..
  · exact .refl s

theorem State.page_settleSuspect_of_not (h : ¬ c.unread l q) : (s.settleSuspect l wear c).page q = s.page q := by
  unfold State.settleSuspect
  split
  next hsuspect =>
    refine State.page_setPage_of_ne _ _ fun hq => h ?_
    subst hq
    exact ⟨rfl, hsuspect⟩
  next => rfl

theorem State.page_settleSuspect_of_unread (h : c.unread l q) (hq : q.index < (s.lane q.lane).pages.length) :
    (s.settleSuspect l wear c).page q = { s.page q with wear := wear, soft := 0 } := by
  obtain ⟨rfl, hsuspect⟩ := h
  rw [State.settleSuspect, if_pos hsuspect, State.page_setPage_self _ _ hq]

/-! ### All of them -/

theorem pagesOnly_settleSuspects (s : State) (m : Mount) (l : LaneId) : PagesOnly s (s.settleSuspects m l) :=
  PagesOnly.foldl (pagesOnly_settleSuspect l _) m.classed s

theorem State.suspectsWorn_settleSuspects (s : State) (m : Mount) (l : LaneId) :
    (s.settleSuspects m l).SuspectsWorn s m l (m.scan l).wearHigh none := by
  refine ⟨fun c hc hlane hcls _ hindex => ?_, fun q _ hnone => ?_⟩
  · have hworn : ∀ d : Classed, d.unread l c.page → ∀ t, MountOnly s t →
        (t.settleSuspect l (m.scan l).wearHigh d).page c.page =
          { t.page c.page with wear := (m.scan l).wearHigh, soft := 0 } := fun d hd t ht =>
      State.page_settleSuspect_of_unread hd (by rwa [ht.length, hlane])
    refine State.page_foldl_of_touched (g := fun r => { r with wear := (m.scan l).wearHigh, soft := 0 })
      (fun t d => (pagesOnly_settleSuspect l _ t d).mountOnly) (fun _ => rfl) (fun d _ t ht => ?_)
      ⟨c, hc, hworn c ⟨rfl, hlane, hcls⟩⟩
    by_cases hd : d.unread l c.page
    · exact .inl (hworn d hd t ht)
    · exact .inr (State.page_settleSuspect_of_not hd)
  · exact State.page_foldl_of_not fun c hc t => State.page_settleSuspect_of_not fun ⟨hpage, hlane, hcls⟩ =>
      hnone c hc hpage (hpage ▸ hlane) hcls

/-- The worn pages of a later mount and page tables, seen from the ones before: one page p may have been read between. -/
theorem State.SuspectsWorn.seenFrom {o : Option PPage} (h : v.SuspectsWorn u n l wear none)
    (hafter : ∀ q, t.page q = v.page q) (hbefore : ∀ q, some q ≠ o → u.page q = s.page q)
    (hlength : (u.lane l).pages.length = (s.lane l).pages.length) (hkept : ∀ c ∈ m.classed, c ∈ n.classed)
    (hread : ∀ c ∈ n.classed, c ∈ m.classed ∨ some c.page = o) : t.SuspectsWorn s m l wear o := by
  obtain ⟨hworn, hsame⟩ := h
  refine ⟨fun c hc hlane hcls hne hindex => ?_, fun q hne hnone => ?_⟩
  · rw [hafter, hworn c (hkept c hc) hlane hcls (by simp) (by rwa [hlength]), hbefore _ hne]
  · rw [hafter, hsame q (by simp) (fun c hc hpage => ?_), hbefore _ hne]
    rcases hread c hc with hold | hnew
    · exact hnone c hold hpage
    · exact absurd (hpage ▸ hnew) hne

/-! ### The scan of one lane ends, the other reads on (09 R143) -/

/-- The end of a step in which a lane's scan ended while the other lane reads on. -/
theorem scanOnward_ends (hlink : s.link = []) (hend : (m.scan l).reading = none)
    (hother : (m.scan l.other).reading.isSome = true) :
    (s.scanOnward m l).settle.mode = s.mode ∧ (s.scanOnward m l).settle.mount = some m ∧
      ∀ q, (s.scanOnward m l).settle.page q = (s.settleSuspects m l).page q := by
  have hpages := (pagesOnly_settleSuspects s m l).mountOnly
  have hlink' : ({ s.settleSuspects m l with mount := some m } : State).link = [] := hpages.link.trans hlink
  have hsettled := settled_refresh { s.settleSuspects m l with mount := some m }
  rw [State.scanOnward_of_ended hend, State.scanAdvance_of_reading hother, settle_of_quiet hlink']
  refine ⟨hsettled.mode.trans hpages.mode, hsettled.mount, fun q => (hsettled.page q).trans ?_⟩
  obtain ⟨k, j⟩ := q
  cases k <;> rfl

/-! ### By its last page -/

theorem Mount.scanned_classed_subset (m : Mount) (p : PPage) (c : Option (PageClass × Option Nat)) (tr : TagRead)
    (next : Option Nat) : ∀ d ∈ m.classed, d ∈ (m.scanned p c tr next).classed := by
  intro d hd
  cases c
  · exact hd
  · exact List.mem_append_left _ hd

theorem Mount.mem_classed_scanned (h : c ∈ (m.scanned p o tr next).classed) : c ∈ m.classed ∨ c.page = p := by
  cases o
  · exact .inl h
  · rcases List.mem_append.1 h with h | h
    · exact .inl h
    · rw [List.mem_singleton.1 h]
      exact .inr rfl

theorem State.page_noteClass (s : State) (p : PPage) (c : Option (PageClass × Option Nat)) (q : PPage) :
    (s.noteClass p c).page q = s.page q := by
  unfold State.noteClass
  split
  · exact State.page_give ..
  · rfl

/-- Reading a page sets its record and no other. -/
theorem State.page_pageScanned_of_ne (h : q ≠ p) : (s.pageScanned p bytes).page q = s.page q := by
  rw [State.pageScanned, State.page_noteClass, State.page_setPage_of_ne _ _ h]

theorem State.page_pageScanned_self (h : p.index < (s.lane p.lane).pages.length) :
    (s.pageScanned p bytes).page p = scannedRec (readTag (tagBytes bytes)) := by
  rw [State.pageScanned, State.page_noteClass, State.page_setPage_self _ _ h]

theorem mountOnly_pageScanned (s : State) (p : PPage) (bytes : List Byte) : MountOnly s (s.pageScanned p bytes) :=
  (pagesOnly_setPage ..).mountOnly.trans (mountOnly_noteClass ..)

/-- A page whose CRC fails is SUSPECT, on a kept mark list too (09 R144; log 26). -/
theorem State.mem_classed_of_badCrc (h : readTag (tagBytes bytes) = .badCrc) (m : Mount) (p : PPage) (tr : TagRead)
    (next : Option Nat) :
    ({ page := p, cls := .suspect true } : Classed) ∈ (m.scanned p (s.scanClass p bytes) tr next).classed := by
  have hclass : ∃ note, s.scanClass p bytes = some (.suspect true, note) := by
    rw [State.scanClass, State.classify_badCrc h]
    split
    · exact ⟨none, rfl⟩
    · exact ⟨some 1, rfl⟩
  obtain ⟨note, hclass⟩ := hclass
  rw [hclass]
  exact List.mem_append_right _ (List.mem_singleton_self _)

/-- The last page of a lane ends its scan (09 R145). -/
theorem lastPage_ends (hq : s.Quiet) (hbytes : bytes.length = 88) (hmount : s.mount = some m) (hphase : m.phase = .scan)
    (hreading : (m.scan l).reading = some i) (hlast : s.geometry.pagesPerLane ≤ i + 1)
    (hother : (m.scan l.other).reading.isSome = true) : 
    ∃ t, exec (.scanReadDone l bytes) s = .next t ∧ t.mode = s.mode ∧
      t.mount.map (fun n => (n.scan l).reading) = some none ∧
      t.SuspectsWorn s m l (wearSeen (m.scan l).wearHigh (readTag (tagBytes bytes))) (some { lane := l, index := i }) ∧
      (readTag (tagBytes bytes) = .badCrc → i < (s.lane l).pages.length →
        t.page { lane := l, index := i } = { state := .free, wear := (m.scan l).wearHigh, soft := 0 }) := by
  generalize hp : ({ lane := l, index := i } : PPage) = p
  generalize hn : m.scanned p (s.scanClass p bytes) (readTag (tagBytes bytes)) none = n
  have hend : (n.scan l).reading = none := by
    subst hn hp
    rw [Mount.scan_scanned]
  have hhigh : (n.scan l).wearHigh = wearSeen (m.scan l).wearHigh (readTag (tagBytes bytes)) := by
    subst hn hp
    rw [Mount.scan_scanned]
  have hreads : (n.scan l.other).reading.isSome = true := by
    subst hn hp
    rwa [Mount.scan_scanned_other]
  have honly := mountOnly_pageScanned s p bytes
  obtain ⟨hstay, hstep, hpages⟩ := scanOnward_ends (honly.link.trans hq.2) hend hreads
  have hworn := (s.pageScanned p bytes).suspectsWorn_settleSuspects n l
  refine ⟨_, ?_, hstay.trans honly.mode, by rw [hstep]; exact congrArg some hend, ?_, fun hbad hindex => ?_⟩
  · rw [exec_scanReadDone hbytes, State.scanRead_eq hmount hphase hreading, if_neg (by omega), hp, hn]
  · rw [← hhigh]
    refine hworn.seenFrom hpages (fun q hne => State.page_pageScanned_of_ne (fun h => hne (congrArg some h)))
      (honly.length l) ?_ ?_
    · exact hn ▸ m.scanned_classed_subset p _ _ _
    · intro c hc
      subst hn
      exact (Mount.mem_classed_scanned hc).imp id (congrArg some)
  · have hmem : ({ page := p, cls := .suspect true } : Classed) ∈ n.classed := hn ▸ State.mem_classed_of_badCrc hbad ..
    subst hp
    rw [hpages, hworn.1 _ hmem rfl rfl (by simp) (by rwa [honly.length]), hhigh,
      State.page_pageScanned_self hindex, hbad]
    rfl

/-! ### By its loss (06 R103, 09 R143) -/

/-- The loss of a lane in a mount: a patrol read it was finishing leaves its record, then the mount goes on. -/
theorem State.mountLose_eq (s : State) (l : LaneId) (page : Option Nat) (cause : Nat) : ∃ r,
    s.mountLose l page cause = (({ s with patrolRead := r } : State).takeOffline l page cause).mountAfterLoss l := by
  unfold State.mountLose
  split
  · exact ⟨none, rfl⟩
  · exact ⟨s.patrolRead, rfl⟩

theorem State.mountAfterLoss_of_scan (hmount : s.mount = some m) (hphase : m.phase = .scan)
    (hreading : (m.scan l).reading.isSome = true) :
    s.mountAfterLoss l = s.scanOnward (m.setScan l { m.scan l with waiting := false, reading := none }) l := by
  simp only [State.mountAfterLoss, hmount, hphase]
  exact if_pos hreading

theorem exec_readTimeout_mounting (hmode : s.mode = .mounting) (hread : s.readUnderWay l = some i) :
    exec (.readTimeout l) s = .next (s.mountLose l (some i) causeReadTimeout).settle := by
  change execReadTimeout l s = _
  simp only [execReadTimeout, hread, State.goOffline, hmode, if_true]

/-- A lane lost in its scan ends it (09 R145). -/
theorem lostLane_ends (hq : s.Quiet) (hmode : s.mode = .mounting) (hmount : s.mount = some m) (hphase : m.phase = .scan)
    (hreading : (m.scan l).reading.isSome = true) (hother : (m.scan l.other).reading.isSome = true)
    (hread : s.readUnderWay l = some i) :
    ∃ t, exec (.readTimeout l) s = .next t ∧ t.mode = .mounting ∧
      t.mount.map (fun n => (n.scan l).reading) = some none ∧ t.SuspectsWorn s m l (m.scan l).wearHigh none := by
  obtain ⟨r, hlose⟩ := s.mountLose_eq l (some i) causeReadTimeout
  generalize hu : ({ s with patrolRead := r } : State).takeOffline l (some i) causeReadTimeout = u at hlose
  generalize hn : m.setScan l { m.scan l with waiting := false, reading := none } = n
  have hend : (n.scan l).reading = none := by rw [← hn, Mount.scan_setScan]
  have hreads : (n.scan l.other).reading.isSome = true := by rwa [← hn, Mount.scan_setScan_other]
  have hhigh : (n.scan l).wearHigh = (m.scan l).wearHigh := by rw [← hn, Mount.scan_setScan]
  have hclassed : n.classed = m.classed := by rw [← hn]; rfl
  have hafter : u.mountAfterLoss l = u.scanOnward n l :=
    hn ▸ State.mountAfterLoss_of_scan (by rw [← hu]; exact hmount) hphase hreading
  have hlink : u.link = [] := by rw [← hu]; exact hq.2
  have hstay : u.mode = s.mode := by rw [← hu]; rfl
  obtain ⟨hends, hstep, hpages⟩ := scanOnward_ends hlink hend hreads
  refine ⟨_, exec_readTimeout_mounting hmode hread, ?_⟩
  rw [hlose, hafter]
  refine ⟨hends.trans (hstay.trans hmode), by rw [hstep]; exact congrArg some hend, ?_⟩
  rw [← hhigh]
  refine (u.suspectsWorn_settleSuspects n l).seenFrom hpages (fun q _ => ?_) ?_ (fun c hc => hclassed ▸ hc)
    (fun c hc => .inl (hclassed ▸ hc))
  · rw [← hu]
    exact State.page_takeOffline ..
  · rw [← hu, State.lane_takeOffline]
    cases l <;> rfl

/-- Settles O51: the class of a page by its tag, then the two ends of a lane's scan. -/
theorem scanJudgesPage : Obligations.ScanJudgesPage := by
  refine ⟨fun s l bytes hq hbytes hroom m hmount hphase i hreading hnext hmark => ?_,
    fun s l bytes hq hbytes m hmount hphase i hreading hlast hother => ?_,
    fun s l hq hmode m hmount hphase hreading hother i hread =>
      lostLane_ends hq hmode hmount hphase hreading hother hread⟩
  · intro p o blank onward note
    have hstep : SettlesTo o _ := settlesTo_scanReadDone hq hbytes hmount hphase hreading hnext hmark
    have hnoted : ∀ r : PageRec, (s.setPage p r).notices.length < 32 := fun _ => hroom
    refine ⟨fun htag => ?_, fun htag => ?_, fun t htag => ?_⟩
    · rw [State.classify_blank htag, htag] at hstep
      cases l <;> exact hstep
    · rw [State.classify_badCrc htag, htag, State.noteClass_noted (hnoted _), Mount.scanned, Mount.addClass_noted] at hstep
      cases l <;> exact hstep
    · have htag := TagRead.eq_good htag
      rw [htag, Mount.scanned, seqSeen_good] at hstep
      intro further u intact
      refine ⟨fun hkind => ?_, fun hkind => ?_, fun hkind => ⟨fun hstale => ?_, fun hlow hnew => ?_⟩,
        fun hsystem hretired h1 h2 h3 => ?_⟩
      · rw [State.classify_system htag hkind, State.noteClass_noted (hnoted _), Mount.addClass_noted] at hstep
        cases l <;> exact hstep
      · rw [State.classify_retired htag hkind, Mount.addClass_silent] at hstep
        cases l <;> exact hstep
      · rw [State.classify_data htag hkind, if_pos hstale, Mount.addClass_silent] at hstep
        cases l <;> exact hstep
      · rw [State.classify_data htag hkind, if_neg (by omega), intactCopy_eq, Mount.addClass_silent] at hstep
        cases l <;> exact hstep
      · rw [State.classify_unknown htag hsystem hretired (by simp [h1, h2, h3]), State.noteClass_noted (hnoted _),
          Mount.addClass_noted] at hstep
        cases l <;> exact hstep
  · intro p high
    obtain ⟨t, hexec, hmode, hstep, hworn, hread⟩ := lastPage_ends hq hbytes hmount hphase hreading hlast hother
    refine ⟨t, hexec, hmode, hstep, hworn, fun hbad hindex => ?_⟩
    have hhigh : high = (m.scan l).wearHigh := by simp only [high, hbad]
    rw [hhigh]
    exact hread hbad hindex

end Sys2Proof.Machine
end

section
/-! PROOFS. The choice among the candidates of one logical page: they stand newest first, the first intact one is taken, or
the newest where none is, and those passed over give their notices (09 R146, R147). -/

namespace Sys2Proof.Machine

variable {s : State} {n : Nat} {x y : Candidate} {cs : List Candidate} {classed : List Classed} {c d : Classed}
  {v : Nat × Bool}

/-! ### Newest first (09 R146) -/

/-- The candidate that a class gives a logical page. -/
def Classed.candidate (c : Classed) (n : Nat) : Option Candidate :=
  (c.candidateFor n).map fun v => { page := c.page, seq := v.1, intact := v.2 }

theorem candidatesOf_eq (classed : List Classed) (n : Nat) :
    candidatesOf classed n = (classed.filterMap (·.candidate n)).foldr insertCandidate [] := by
  refine congrArg (List.foldr insertCandidate []) (List.filterMap_congr fun c _ => ?_)
  obtain ⟨p, cls⟩ := c
  cases cls with
  | candidate m q ok =>
    simp only [Classed.candidate, Classed.candidateFor]
    split <;> rfl
  | _ => rfl

theorem insertCandidate_perm (x : Candidate) (cs : List Candidate) : (insertCandidate x cs).Perm (x :: cs) := by
  induction cs with
  | nil => exact .refl _
  | cons d ds ih =>
    rw [insertCandidate]
    split
    · exact .refl _
    · exact (ih.cons d).trans (.swap x d ds)

theorem candidatesOf_perm (classed : List Classed) (n : Nat) :
    (candidatesOf classed n).Perm (classed.filterMap (·.candidate n)) := by
  rw [candidatesOf_eq]
  induction classed.filterMap (·.candidate n) with
  | nil => exact .refl _
  | cons x cs ih => exact (insertCandidate_perm ..).trans (ih.cons x)

theorem mem_candidatesOf : x ∈ candidatesOf classed n ↔ ∃ c ∈ classed, c.candidate n = some x := by
  rw [(candidatesOf_perm classed n).mem_iff, List.mem_filterMap]

theorem mem_candidatesOf_of (hc : c ∈ classed) (hv : c.candidateFor n = some v) :
    { page := c.page, seq := v.1, intact := v.2 } ∈ candidatesOf classed n :=
  mem_candidatesOf.2 ⟨c, hc, by rw [Classed.candidate, hv]; rfl⟩

/-- Each candidate is that of a class. -/
theorem class_of_mem_candidatesOf (h : x ∈ candidatesOf classed n) :
    ∃ c ∈ classed, c.page = x.page ∧ c.candidateFor n = some (x.seq, x.intact) := by
  obtain ⟨c, hc, hx⟩ := mem_candidatesOf.1 h
  obtain ⟨v, hv, rfl⟩ := Option.map_eq_some_iff.1 hx
  exact ⟨c, hc, rfl, hv⟩

theorem Candidate.seq_le_of_newer (h : x.newer y = true) : y.seq ≤ x.seq := by
  simp only [Candidate.newer, Bool.or_eq_true, decide_eq_true_eq, Bool.and_eq_true, beq_iff_eq] at h
  omega

theorem Candidate.seq_le_of_not_newer (h : ¬ x.newer y = true) : x.seq ≤ y.seq := by
  simp only [Candidate.newer, Bool.or_eq_true, decide_eq_true_eq] at h
  omega

theorem insertCandidate_sorted (x : Candidate) (h : cs.Pairwise fun a b => b.seq ≤ a.seq) :
    (insertCandidate x cs).Pairwise fun a b => b.seq ≤ a.seq := by
  induction cs with
  | nil => exact List.pairwise_singleton ..
  | cons d ds ih =>
    obtain ⟨hd, hds⟩ := List.pairwise_cons.1 h
    rw [insertCandidate]
    split
    next hnewer =>
      have hle := Candidate.seq_le_of_newer hnewer
      exact List.pairwise_cons.2 ⟨List.forall_mem_cons.2 ⟨hle, fun e he => (hd e he).trans hle⟩, h⟩
    next holder =>
      refine List.pairwise_cons.2 ⟨fun e he => ?_, ih hds⟩
      rcases List.mem_cons.1 ((insertCandidate_perm x ds).mem_iff.1 he) with rfl | he
      · exact Candidate.seq_le_of_not_newer holder
      · exact hd e he

/-- The candidates of a page stand in descending order of sequence. -/
theorem candidatesOf_sorted (classed : List Classed) (n : Nat) :
    (candidatesOf classed n).Pairwise fun a b => b.seq ≤ a.seq := by
  rw [candidatesOf_eq]
  induction classed.filterMap (·.candidate n) with
  | nil => exact .nil
  | cons x cs ih => exact insertCandidate_sorted x ih

/-! ### The copy taken and the copies passed over (09 R146, R147) -/

/-- The candidate taken: the first intact one, or the newest where none is intact. -/
def chosenOf (cs : List Candidate) : Option Candidate :=
  match cs.dropWhile (fun c => !c.intact) with
  | c :: _ => some c
  | [] => cs.head?

/-- The notices of the choice: one for each candidate passed over, or one for the newest where none is intact. -/
def tornOf (n : Nat) (cs : List Candidate) : List Notice :=
  match cs.dropWhile (fun c => !c.intact) with
  | _ :: _ => (cs.takeWhile (fun d => !d.intact)).map fun d => tornNotice d.page n tornDiscarded
  | [] => cs.head?.toList.map fun c => tornNotice c.page n tornKept

/-- A TORN_COPY notice given with its flag. -/
def State.giveTorn (s : State) (x : Notice) : State := (s.give x).flag (fun f => { f with mountTorn := true })

theorem State.chooseCopy_eq (s : State) (n : Nat) (cs : List Candidate) : s.chooseCopy n cs =
    match chosenOf cs with
    | some c => ((tornOf n cs).foldl State.giveTorn s).mapChosen n c
    | none => s := by
  cases h : cs.dropWhile (fun c => !c.intact) with
  | cons c rest =>
    simp only [State.chooseCopy, chosenOf, tornOf, h, List.foldl_map]
    rfl
  | nil => cases cs <;> simp only [State.chooseCopy, chosenOf, tornOf, h] <;> rfl

/-- Candidates, one of them intact: the torn ones passed over, the one taken, and those it is as new as. -/
theorem candidates_split (h : ∃ y ∈ cs, y.intact = true) : ∃ x rest,
    cs.dropWhile (fun c => !c.intact) = x :: rest ∧ x.intact = true ∧
      cs = cs.takeWhile (fun c => !c.intact) ++ x :: rest := by
  obtain ⟨y, hy, hintact⟩ := h
  cases hdrop : cs.dropWhile (fun c => !c.intact) with
  | nil =>
    have := List.dropWhile_eq_nil_iff.1 hdrop y hy
    simp [hintact] at this
  | cons x rest =>
    have hx := List.head?_dropWhile_not (fun c : Candidate => !c.intact) cs
    rw [hdrop] at hx
    exact ⟨x, rest, rfl, by simpa using hx, hdrop ▸ List.takeWhile_append_dropWhile.symm⟩

theorem dropWhile_of_torn (h : ∀ y ∈ cs, y.intact = false) : cs.dropWhile (fun c => !c.intact) = [] :=
  List.dropWhile_eq_nil_iff.2 fun y hy => by rw [h y hy]; rfl

theorem torn_of_mem_takeWhile (h : y ∈ cs.takeWhile (fun c => !c.intact)) : y.intact = false := by
  simpa using List.mem_takeWhile_imp h

/-- An intact candidate is at most as new as the one taken, and that is intact. -/
theorem chosenOf_of_intact (hsorted : cs.Pairwise fun a b => b.seq ≤ a.seq) (hy : y ∈ cs) (hintact : y.intact = true) :
    ∃ x, chosenOf cs = some x ∧ x.intact = true ∧ y.seq ≤ x.seq := by
  obtain ⟨x, rest, hdrop, hx, hsplit⟩ := candidates_split ⟨y, hy, hintact⟩
  refine ⟨x, by rw [chosenOf, hdrop], hx, ?_⟩
  rw [hsplit] at hy hsorted
  obtain hy | hy := List.mem_append.1 hy
  · simp [torn_of_mem_takeWhile hy] at hintact
  · rcases List.mem_cons.1 hy with rfl | hy
    · exact Nat.le_refl _
    · exact List.rel_of_pairwise_cons (List.pairwise_append.1 hsorted).2.1 hy

/-- Where none is intact the newest is taken. -/
theorem chosenOf_of_torn (hsorted : cs.Pairwise fun a b => b.seq ≤ a.seq) (hy : y ∈ cs)
    (htorn : ∀ z ∈ cs, z.intact = false) : ∃ x, cs.head? = some x ∧ chosenOf cs = some x ∧ y.seq ≤ x.seq := by
  cases cs with
  | nil => cases hy
  | cons x rest =>
    refine ⟨x, rfl, by rw [chosenOf, dropWhile_of_torn htorn]; rfl, ?_⟩
    rcases List.mem_cons.1 hy with rfl | hy
    · exact Nat.le_refl _
    · exact List.rel_of_pairwise_cons hsorted hy

theorem chosenOf_mem (h : chosenOf cs = some x) : x ∈ cs := by
  unfold chosenOf at h
  split at h
  · next hdrop =>
    cases h
    exact (List.dropWhile_suffix _).subset (hdrop ▸ List.mem_cons_self)
  · exact List.mem_of_head? h

theorem chosenOf_eq_none : chosenOf cs = none ↔ cs = [] := by
  unfold chosenOf
  split
  next hdrop => exact iff_of_false (by simp) fun h => by simp [h] at hdrop
  next => exact List.head?_eq_none_iff

/-- The copy taken is that of a class. -/
theorem class_of_chosenOf (h : chosenOf (candidatesOf classed n) = some x) :
    ∃ c ∈ classed, c.page = x.page ∧ c.candidateFor n = some (x.seq, x.intact) :=
  class_of_mem_candidatesOf (chosenOf_mem h)

theorem candidatesOf_eq_nil (h : ∀ c ∈ classed, c.candidateFor n = none) : candidatesOf classed n = [] :=
  List.eq_nil_iff_forall_not_mem.2 fun _ hx => by
    obtain ⟨c, hc, -, hv⟩ := class_of_mem_candidatesOf hx
    rw [h c hc] at hv
    cases hv

/-- The candidate newer than every other that is as whole as it is taken, where it is intact or none is (09 R146). -/
theorem chosenOf_candidatesOf (hc : c ∈ classed) (hv : c.candidateFor n = some v)
    (hnewest : ∀ d ∈ classed, d ≠ c → (d.candidateFor n).all (fun r => r.2 != v.2 || decide (r.1 < v.1)) = true)
    (hwhole : v.2 = true ∨ ∀ d ∈ classed, (d.candidateFor n).all (fun r => !r.2) = true) :
    chosenOf (candidatesOf classed n) = some { page := c.page, seq := v.1, intact := v.2 } := by
  have hmem := mem_candidatesOf_of hc hv
  have hsorted := candidatesOf_sorted classed n
  have honly : ∀ x ∈ candidatesOf classed n, x.intact = v.2 → v.1 ≤ x.seq →
      x = { page := c.page, seq := v.1, intact := v.2 } := by
    intro x hx hintact hseq
    obtain ⟨d, hd, hpage, hr⟩ := class_of_mem_candidatesOf hx
    by_cases hdc : d = c
    · subst hdc
      obtain rfl : v = (x.seq, x.intact) := Option.some_injective _ (hv.symm.trans hr)
      rw [hpage]
    · have := hnewest d hd hdc
      simp only [hr, Option.all_some, hintact, bne_self_eq_false, Bool.false_or, decide_eq_true_eq] at this
      omega
  rcases hwhole with hintact | htorn
  · obtain ⟨x, hchosen, hx, hseq⟩ := chosenOf_of_intact hsorted hmem hintact
    rw [hchosen, honly x (chosenOf_mem hchosen) (hx.trans hintact.symm) hseq]
  · have hall : ∀ z ∈ candidatesOf classed n, z.intact = false := fun z hz => by
      obtain ⟨d, hd, -, hr⟩ := class_of_mem_candidatesOf hz
      simpa [hr] using htorn d hd
    obtain ⟨x, -, hchosen, hseq⟩ := chosenOf_of_torn hsorted hmem hall
    rw [hchosen, honly x (chosenOf_mem hchosen) ((hall x (chosenOf_mem hchosen)).trans (hall _ hmem).symm) hseq]

/-! ### The notices (09 R147) -/

theorem length_tornOf_le (n : Nat) (cs : List Candidate) : (tornOf n cs).length ≤ cs.length := by
  unfold tornOf
  split
  · rw [List.length_map]
    exact (List.takeWhile_sublist _).length_le
  · cases cs <;> simp

/-- A torn candidate newer than every intact one is passed over. -/
theorem mem_tornOf_passed (hsorted : cs.Pairwise fun a b => b.seq ≤ a.seq) (hy : y ∈ cs) (hintact : ∃ z ∈ cs, z.intact = true)
    (hnewer : ∀ z ∈ cs, z.intact = true → z.seq < y.seq) : tornNotice y.page n tornDiscarded ∈ tornOf n cs := by
  obtain ⟨x, rest, hdrop, hx, hsplit⟩ := candidates_split hintact
  have hlt : x.seq < y.seq := hnewer x (hsplit ▸ List.mem_append_right _ List.mem_cons_self) hx
  simp only [tornOf, hdrop]
  refine List.mem_map.2 ⟨y, ?_, rfl⟩
  rw [hsplit] at hy hsorted
  obtain hy | hy := List.mem_append.1 hy
  · exact hy
  · rcases List.mem_cons.1 hy with rfl | hy
    · omega
    · have := List.rel_of_pairwise_cons (List.pairwise_append.1 hsorted).2.1 hy
      omega

/-- The newest candidate where none is intact. -/
theorem mem_tornOf_kept (hsorted : cs.Pairwise fun a b => b.seq ≤ a.seq) (hy : y ∈ cs) (htorn : ∀ z ∈ cs, z.intact = false)
    (hnewest : ∀ z ∈ cs, z ≠ y → z.seq < y.seq) : tornNotice y.page n tornKept ∈ tornOf n cs := by
  obtain ⟨x, hhead, -, hseq⟩ := chosenOf_of_torn hsorted hy htorn
  obtain rfl : x = y := by
    by_contra hne
    have := hnewest x (List.mem_of_head? hhead) hne
    omega
  simp [tornOf, dropWhile_of_torn htorn, hhead]

theorem tornOf_eq_nil (h : ∀ y ∈ cs, y.intact = true) : tornOf n cs = [] := by
  cases cs with
  | nil => rfl
  | cons x rest => simp [tornOf, h x List.mem_cons_self]

theorem length_candidatesOf (classed : List Classed) (n : Nat) :
    (candidatesOf classed n).length = classed.countP fun c => (c.candidate n).isSome := by
  rw [(candidatesOf_perm classed n).length_eq, List.length_filterMap_eq_countP]

/-- A class gives a candidate to one logical page at most. -/
theorem Classed.candidate_unique (c : Classed) : ∃ m, ∀ n, (c.candidate n).isSome = true → n = m := by
  obtain ⟨p, cls⟩ := c
  cases cls with
  | candidate m q ok =>
    refine ⟨m, fun n h => ?_⟩
    by_contra hne
    simp [Classed.candidate, Classed.candidateFor, Ne.symm hne] at h
  | _ => exact ⟨0, fun n h => by simp [Classed.candidate, Classed.candidateFor] at h⟩

theorem sum_map_ite_eq_countP {α : Type} (p : α → Bool) (xs : List α) :
    (xs.map fun x => if p x then 1 else 0).sum = xs.countP p := by
  induction xs with
  | nil => rfl
  | cons x xs ih => rw [List.map_cons, List.sum_cons, ih, List.countP_cons, Nat.add_comm]

/-- The candidates of all pages are no more than the classes. -/
theorem length_flatMap_candidatesOf_le (classed : List Classed) {ns : List Nat} (hns : ns.Nodup) :
    (ns.flatMap (candidatesOf classed)).length ≤ classed.length := by
  simp only [List.length_flatMap, length_candidatesOf]
  induction classed with
  | nil => simp
  | cons c cs ih =>
    obtain ⟨m, hm⟩ := c.candidate_unique
    have hone : (ns.map fun n => if (c.candidate n).isSome then 1 else 0).sum ≤ 1 := by
      rw [sum_map_ite_eq_countP]
      exact (List.countP_mono_left fun n _ h => beq_iff_eq.2 (hm n h)).trans (List.nodup_iff_count_le_one.1 hns m)
    simp only [List.countP_cons, List.sum_map_add, List.length_cons]
    omega

end Sys2Proof.Machine
end

section
/-! PROOFS. Phase CHOOSE: the records of the pages as each is judged, mapped or retired, the map, and the TORN_COPY
notices with their flag (09 R144 to R149). -/

namespace Sys2Proof.Machine

variable {s t u : State} {n : Nat} {x : Candidate} {cs : List Candidate} {classed : List Classed} {c : Classed}
  {q : PPage} {m : Mount} {ns : List Nat}

/-! ### The judgement of a class (09 R144, R145, R148) -/

/-- The record of a page after its class is judged. -/
def State.judgedAs (s : State) (cls : PageClass) (r : PageRec) : PageRec :=
  match cls with
  | .retired => { r with state := .retired }
  | _ => s.judged r

theorem State.judgeClass_eq (s : State) (c : Classed) :
    s.judgeClass c = s.setPage c.page (s.judgedAs c.cls (s.page c.page)) := by
  unfold State.judgeClass State.judgedAs
  split <;> simp_all

theorem State.judged_eq_released (s : State) (r : PageRec) : s.judged r = s.released r := by
  simp only [State.judged, State.released, State.atLimit_iff]

theorem State.judgedAs_idem (s : State) (cls : PageClass) (r : PageRec) :
    s.judgedAs cls (s.judgedAs cls r) = s.judgedAs cls r := by
  cases cls <;> rfl

theorem State.judgedAs_congr (h : t.cfg = s.cfg) (cls : PageClass) (r : PageRec) :
    t.judgedAs cls r = s.judgedAs cls r := by
  unfold State.judgedAs State.judged State.atLimit
  rw [h]

theorem pagesOnly_judgeClass (s : State) (c : Classed) : PagesOnly s (s.judgeClass c) := by
  rw [State.judgeClass_eq]
  exact pagesOnly_setPage ..

theorem State.page_judgeClass_of_ne (s : State) (h : c.page ≠ q) : (s.judgeClass c).page q = s.page q := by
  rw [State.judgeClass_eq, State.page_setPage_of_ne _ _ h.symm]

/-- The page of one class, classified once, is judged by it. -/
theorem State.page_judged (honce : (classed.map (·.page)).Nodup) (hc : c ∈ classed)
    (hindex : c.page.index < (s.lane c.page.lane).pages.length) :
    (classed.foldl State.judgeClass s).page c.page = s.judgedAs c.cls (s.page c.page) := by
  have hself : ∀ t, MountOnly s t → (t.judgeClass c).page c.page = s.judgedAs c.cls (t.page c.page) := fun t ht => by
    rw [State.judgeClass_eq, State.page_setPage_self _ _ (by rwa [ht.length]), State.judgedAs_congr ht.cfg]
  refine State.page_foldl_of_touched (fun t d => (pagesOnly_judgeClass t d).mountOnly) (s.judgedAs_idem c.cls)
    (fun d hd t ht => ?_) ⟨c, hc, hself⟩
  by_cases hpage : d.page = c.page
  · obtain rfl : d = c := List.inj_on_of_nodup_map honce hd hc hpage
    exact .inl (hself t ht)
  · exact .inr (t.page_judgeClass_of_ne hpage)

/-! ### The choice of one logical page -/

theorem mountOnly_giveTorn (s : State) (x : Notice) : MountOnly s (s.giveTorn x) :=
  (mountOnly_give ..).trans (mountOnly_flag ..)

theorem mountOnly_mapChosen (s : State) (n : Nat) (x : Candidate) : MountOnly s (s.mapChosen n x) :=
  (mountOnly_remap s _).trans (pagesOnly_setPage ..).mountOnly

theorem mountOnly_chooseCopy (s : State) (n : Nat) (cs : List Candidate) : MountOnly s (s.chooseCopy n cs) := by
  rw [State.chooseCopy_eq]
  split
  · exact (MountOnly.foldl mountOnly_giveTorn _ _).trans (mountOnly_mapChosen ..)
  · exact .refl s

theorem State.foldl_giveTorn_eq (s : State) (xs : List Notice) : ∃ notices dropped faults,
    xs.foldl State.giveTorn s = { s with notices := notices, dropped := dropped, faults := faults } := by
  induction xs generalizing s with
  | nil => exact ⟨_, _, _, rfl⟩
  | cons x xs ih =>
    obtain ⟨_, _, _, hrest⟩ := ih (s.giveTorn x)
    exact ⟨_, _, _, hrest⟩

theorem State.chooseCopy_of_none (s : State) (h : chosenOf cs = none) (n : Nat) : s.chooseCopy n cs = s := by
  rw [State.chooseCopy_eq, h]

theorem State.remap_chooseCopy (h : chosenOf cs = some x) (s : State) (n : Nat) :
    (s.chooseCopy n cs).remap = (s.setEntry n (.mapped x.page x.seq)).remap := by
  rw [State.chooseCopy_eq, h]
  obtain ⟨_, _, _, hgiven⟩ := s.foldl_giveTorn_eq (tornOf n cs)
  rw [hgiven]
  rfl

theorem State.length_remap_chooseCopy (s : State) (n : Nat) (cs : List Candidate) :
    (s.chooseCopy n cs).remap.length = s.remap.length := by
  cases h : chosenOf cs with
  | none => rw [s.chooseCopy_of_none h]
  | some x => exact (congrArg List.length (State.remap_chooseCopy h s n)).trans List.length_set

theorem State.entry_chooseCopy_of_ne (s : State) (cs : List Candidate) {k : Nat} (hne : n ≠ k) :
    (s.chooseCopy k cs).entry n = s.entry n := by
  cases h : chosenOf cs with
  | none => rw [s.chooseCopy_of_none h]
  | some x => rw [State.entry_congr (State.remap_chooseCopy h s k), State.entry_setEntry_of_ne s _ hne]

theorem State.entry_chooseCopy_self (h : chosenOf cs = some x) (hlen : n < s.remap.length) :
    (s.chooseCopy n cs).entry n = .mapped x.page x.seq := by
  rw [State.entry_congr (State.remap_chooseCopy h s n), State.entry_setEntry_self s _ hlen]

theorem State.page_chooseCopy_of_ne (h : ∀ x, chosenOf cs = some x → x.page ≠ q) (s : State) (n : Nat) :
    (s.chooseCopy n cs).page q = s.page q := by
  rw [State.chooseCopy_eq]
  obtain ⟨_, _, _, hgiven⟩ := s.foldl_giveTorn_eq (tornOf n cs)
  split
  next x hx =>
    rw [hgiven]
    exact State.page_setPage_of_ne _ _ (h x hx).symm
  next => rfl

theorem State.page_chooseCopy_self (h : chosenOf cs = some x) (n : Nat)
    (hindex : x.page.index < (s.lane x.page.lane).pages.length) :
    (s.chooseCopy n cs).page x.page = { s.page x.page with state := .mapped n } := by
  rw [State.chooseCopy_eq, h]
  obtain ⟨_, _, _, hgiven⟩ := s.foldl_giveTorn_eq (tornOf n cs)
  rw [hgiven]
  exact State.page_setPage_self _ _ (by
    rw [State.lane_setEntry]
    exact hindex)

/-! ### The choice of every logical page -/

/-- The choice of each logical page of a list. -/
def State.chooseAll (s : State) (classed : List Classed) (ns : List Nat) : State :=
  ns.foldl (fun t n => t.chooseCopy n (candidatesOf classed n)) s

theorem mountOnly_chooseAll (s : State) (classed : List Classed) (ns : List Nat) :
    MountOnly s (s.chooseAll classed ns) :=
  MountOnly.foldl (fun _ _ => mountOnly_chooseCopy ..) ns s

theorem State.length_remap_chooseAll (s : State) (classed : List Classed) (ns : List Nat) :
    (s.chooseAll classed ns).remap.length = s.remap.length := by
  induction ns generalizing s with
  | nil => rfl
  | cons n ns ih => exact (ih _).trans (s.length_remap_chooseCopy n _)

theorem State.entry_chooseAll_of_not (h : n ∉ ns) (s : State) : (s.chooseAll classed ns).entry n = s.entry n := by
  induction ns generalizing s with
  | nil => rfl
  | cons k ns ih =>
    obtain ⟨hne, hns⟩ := not_or.1 (mt List.mem_cons.2 h)
    exact (ih hns _).trans (s.entry_chooseCopy_of_ne _ hne)

/-- The entry of a logical page whose copy was chosen. -/
theorem State.entry_chooseAll_of_chosen (hns : ns.Nodup) (hn : n ∈ ns) (hlen : n < s.remap.length)
    (h : chosenOf (candidatesOf classed n) = some x) : (s.chooseAll classed ns).entry n = .mapped x.page x.seq := by
  induction ns generalizing s with
  | nil => cases hn
  | cons k ns ih =>
    obtain ⟨hk, hns⟩ := List.nodup_cons.1 hns
    rcases List.mem_cons.1 hn with rfl | hn
    · exact (State.entry_chooseAll_of_not hk _).trans (State.entry_chooseCopy_self h hlen)
    · exact ih hns hn (by rwa [State.length_remap_chooseCopy])

/-- The entry of a logical page without a candidate is as it was. -/
theorem State.entry_chooseAll_of_none (h : chosenOf (candidatesOf classed n) = none) (s : State) :
    (s.chooseAll classed ns).entry n = s.entry n := by
  induction ns generalizing s with
  | nil => rfl
  | cons k ns ih =>
    refine (ih _).trans ?_
    by_cases hne : n = k
    · subst hne
      exact congrArg (·.entry n) (s.chooseCopy_of_none h n)
    · exact s.entry_chooseCopy_of_ne _ hne

theorem State.page_chooseAll_of_not (h : ∀ n ∈ ns, ∀ x, chosenOf (candidatesOf classed n) = some x → x.page ≠ q)
    (s : State) : (s.chooseAll classed ns).page q = s.page q :=
  State.page_foldl_of_not fun n hn t => State.page_chooseCopy_of_ne (h n hn) t n

/-- The page of a copy chosen for one logical page and for no other. -/
theorem State.page_chooseAll_of_chosen (hn : n ∈ ns) (h : chosenOf (candidatesOf classed n) = some x)
    (honly : ∀ k ∈ ns, ∀ y, chosenOf (candidatesOf classed k) = some y → y.page = x.page → k = n)
    (hindex : x.page.index < (s.lane x.page.lane).pages.length) :
    (s.chooseAll classed ns).page x.page = { s.page x.page with state := .mapped n } := by
  have hself : ∀ t, MountOnly s t → (t.chooseCopy n (candidatesOf classed n)).page x.page =
      { t.page x.page with state := .mapped n } := fun t ht =>
    State.page_chooseCopy_self h n (by rwa [ht.length])
  refine State.page_foldl_of_touched (g := fun r => { r with state := .mapped n }) (fun _ _ => mountOnly_chooseCopy ..)
    (fun _ => rfl) (fun k hk t ht => ?_) ⟨n, hn, hself⟩
  by_cases hkn : k = n
  · exact .inl (hkn ▸ hself t ht)
  · exact .inr (State.page_chooseCopy_of_ne (fun y hy hpage => hkn (honly k hk y hy hpage)) t k)

/-! ### Kept mark lists (01 R20, 09 R143) -/

/-- One page of a kept mark list is RETIRED. -/
def State.retireKept (l : LaneId) (t : State) (i : Nat) : State :=
  t.setPage { lane := l, index := i } { t.page { lane := l, index := i } with state := .retired }

theorem State.retireMarked_eq (s : State) (l : LaneId) :
    s.retireMarked l = (s.lane l).markList.foldl (State.retireKept l) s := rfl

theorem pagesOnly_retireKept (l : LaneId) (t : State) (i : Nat) : PagesOnly t (State.retireKept l t i) :=
  pagesOnly_setPage ..

theorem pagesOnly_retireMarked (s : State) (l : LaneId) : PagesOnly s (s.retireMarked l) :=
  PagesOnly.foldl (pagesOnly_retireKept l) _ s

theorem MountOnly.markList (h : MountOnly s t) (l : LaneId) : (t.lane l).markList = (s.lane l).markList := by
  obtain ⟨_, _, _, _, _, ⟨_, _, rfl, -⟩, rfl⟩ := h
  cases l <;> rfl

theorem State.page_retireKept_of_ne {l : LaneId} {i : Nat} (h : q ≠ { lane := l, index := i }) (t : State) :
    (State.retireKept l t i).page q = t.page q := State.page_setPage_of_ne _ _ h

theorem State.page_retireMarked_of_not (l : LaneId) (h : q.lane = l → q.index ∉ (s.lane l).markList) :
    (s.retireMarked l).page q = s.page q :=
  State.page_foldl_of_not fun i hi t => State.page_retireKept_of_ne (fun hq => by
    subst hq
    exact h rfl hi) t

theorem State.page_retireMarked_of_mem {l : LaneId} {i : Nat} (hi : i ∈ (s.lane l).markList)
    (hindex : i < (s.lane l).pages.length) : ((s.retireMarked l).page { lane := l, index := i }).state = .retired := by
  have hself : ∀ t, MountOnly s t → (State.retireKept l t i).page { lane := l, index := i } =
      { t.page { lane := l, index := i } with state := .retired } := fun t ht =>
    State.page_setPage_self t _ (by rwa [ht.length])
  rw [State.retireMarked_eq, State.page_foldl_of_touched (g := fun r => { r with state := .retired })
    (fun t j => (pagesOnly_retireKept l t j).mountOnly) (fun _ => rfl) (fun j _ t ht => ?_) ⟨i, hi, hself⟩]
  by_cases hji : j = i
  · exact .inl (hji ▸ hself t ht)
  · exact .inr (State.page_retireKept_of_ne (fun h => hji (congrArg PPage.index h).symm) t)

/-! ### The notices of the choice (09 R147) -/

/-- The notices held, those dropped and the fault summary are the same. -/
def SameNotes (s t : State) : Prop := t.notices = s.notices ∧ t.dropped = s.dropped ∧ t.faults = s.faults

theorem PagesOnly.sameNotes (h : PagesOnly s t) : SameNotes s t := by
  obtain ⟨_, _, rfl, -⟩ := h
  exact ⟨rfl, rfl, rfl⟩

theorem SameNotes.trans (h : SameNotes s t) (g : SameNotes t u) : SameNotes s u :=
  ⟨g.1.trans h.1, g.2.1.trans h.2.1, g.2.2.trans h.2.2⟩

theorem SameNotes.giveTorn (h : SameNotes s t) (x : Notice) : SameNotes (s.giveTorn x) (t.giveTorn x) := by
  obtain ⟨hnotices, hdropped, hfaults⟩ := h
  simp only [SameNotes, State.giveTorn, State.flag, State.give, hnotices, hdropped, hfaults, and_self]

theorem SameNotes.foldl (h : SameNotes s t) (xs : List Notice) :
    SameNotes (xs.foldl State.giveTorn s) (xs.foldl State.giveTorn t) := by
  induction xs generalizing s t with
  | nil => exact h
  | cons x xs ih => exact ih (h.giveTorn x)

theorem sameNotes_chooseCopy (s : State) (n : Nat) (cs : List Candidate) :
    SameNotes ((tornOf n cs).foldl State.giveTorn s) (s.chooseCopy n cs) := by
  rw [State.chooseCopy_eq]
  split
  · exact ⟨rfl, rfl, rfl⟩
  next h =>
    obtain rfl : cs = [] := chosenOf_eq_none.1 h
    exact ⟨rfl, rfl, rfl⟩

/-- The notices of all choices, in the order of the logical pages. -/
def tornNotices (classed : List Classed) (ns : List Nat) : List Notice :=
  ns.flatMap fun n => tornOf n (candidatesOf classed n)

theorem sameNotes_chooseAll (s : State) (classed : List Classed) (ns : List Nat) :
    SameNotes ((tornNotices classed ns).foldl State.giveTorn s) (s.chooseAll classed ns) := by
  induction ns generalizing s with
  | nil => exact ⟨rfl, rfl, rfl⟩
  | cons n ns ih =>
    rw [tornNotices, List.flatMap_cons, List.foldl_append]
    exact ((sameNotes_chooseCopy s n _).foldl _).trans (ih _)

theorem State.notices_foldl_giveTorn {xs : List Notice} (h : s.notices.length + xs.length ≤ 32) :
    (xs.foldl State.giveTorn s).notices = s.notices ++ xs := by
  induction xs generalizing s with
  | nil => simp
  | cons x xs ih =>
    have hone : (s.giveTorn x).notices = s.notices ++ [x] :=
      State.notices_give_of_room s x (by simp only [List.length_cons] at h; omega)
    rw [List.foldl_cons, ih (by simp only [hone, List.length_append, List.length_cons, List.length_nil] at h ⊢; omega),
      hone, List.append_assoc, List.singleton_append]

theorem State.mountTorn_foldl_giveTorn {xs : List Notice} (h : s.faults.mountTorn = true ∨ xs ≠ []) :
    (xs.foldl State.giveTorn s).faults.mountTorn = true := by
  induction xs generalizing s with
  | nil => simpa using h
  | cons x xs ih => exact ih (.inl rfl)

theorem length_tornNotices_le (classed : List Classed) (hns : ns.Nodup) :
    (tornNotices classed ns).length ≤ classed.length := by
  refine Nat.le_trans ?_ (length_flatMap_candidatesOf_le classed hns)
  rw [tornNotices, List.length_flatMap, List.length_flatMap]
  exact List.sum_le_sum fun n _ => length_tornOf_le n _

end Sys2Proof.Machine
end

section
/-! PROOFS. Phase CHOOSE as a whole: every class is judged on a cleared map, a copy of every logical page is chosen, and the
pages of the kept mark lists are RETIRED (09 R144 to R149). -/

namespace Sys2Proof.Machine

variable {s t : State} {m : Mount} {n : Nat} {x : Candidate} {c : Classed} {q : PPage} {v : Nat × Bool}

/-! ### The parts of the phase -/

/-- Every class is judged, and the map is cleared. -/
def State.mapCleared (s : State) (m : Mount) : State :=
  { m.classed.foldl State.judgeClass s with
    remap := List.replicate s.cfg.capacity (if s.anyOffline then .absent else .unmapped) }

/-- A copy of every logical page is chosen. -/
def State.allChosen (s : State) (m : Mount) : State :=
  (s.mapCleared m).chooseAll m.classed (List.range s.cfg.capacity)

theorem State.choosePhase_eq (s : State) (m : Mount) :
    s.choosePhase m = ((s.allChosen m).retireMarked .a).retireMarked .b := rfl

theorem pagesOnly_judgeClasses (s : State) (classed : List Classed) : PagesOnly s (classed.foldl State.judgeClass s) :=
  PagesOnly.foldl pagesOnly_judgeClass classed s

theorem mountOnly_mapCleared (s : State) (m : Mount) : MountOnly s (s.mapCleared m) :=
  (pagesOnly_judgeClasses s m.classed).mountOnly.trans (mountOnly_remap ..)

theorem mountOnly_allChosen (s : State) (m : Mount) : MountOnly s (s.allChosen m) :=
  (mountOnly_mapCleared s m).trans (mountOnly_chooseAll ..)

theorem pagesOnly_choosePhase (s : State) (m : Mount) : PagesOnly (s.allChosen m) (s.choosePhase m) :=
  (pagesOnly_retireMarked _ .a).trans (pagesOnly_retireMarked _ .b)

theorem mountOnly_choosePhase (s : State) (m : Mount) : MountOnly s (s.choosePhase m) :=
  (mountOnly_allChosen s m).trans (pagesOnly_choosePhase s m).mountOnly

theorem PagesOnly.remap (h : PagesOnly s t) : t.remap = s.remap := by
  obtain ⟨_, _, rfl, -⟩ := h; rfl

/-! ### The map (09 R146, R149) -/

theorem State.length_remap_choosePhase (s : State) (m : Mount) : (s.choosePhase m).remap.length = s.cfg.capacity := by
  rw [(pagesOnly_choosePhase s m).remap, State.allChosen, State.length_remap_chooseAll]
  exact List.length_replicate

theorem State.entry_choosePhase_of_chosen (hn : n < s.cfg.capacity)
    (h : chosenOf (candidatesOf m.classed n) = some x) : (s.choosePhase m).entry n = .mapped x.page x.seq := by
  rw [State.entry_congr (pagesOnly_choosePhase s m).remap]
  refine State.entry_chooseAll_of_chosen List.nodup_range (List.mem_range.2 hn) ?_ h
  rw [State.mapCleared, List.length_replicate]
  exact hn

theorem State.entry_choosePhase_of_none (hn : n < s.cfg.capacity) (h : candidatesOf m.classed n = []) :
    (s.choosePhase m).entry n = if s.anyOffline then .absent else .unmapped := by
  rw [State.entry_congr (pagesOnly_choosePhase s m).remap, State.allChosen,
    State.entry_chooseAll_of_none (chosenOf_eq_none.2 h)]
  simp [State.entry, State.mapCleared, hn]

/-! ### The pages (09 R144, R145, R148) -/

theorem State.page_mapCleared (s : State) (m : Mount) (q : PPage) :
    (s.mapCleared m).page q = (m.classed.foldl State.judgeClass s).page q := by
  obtain ⟨l, i⟩ := q
  cases l <;> rfl

theorem State.page_choosePhase_of_unmarked (h : q.index ∉ (s.lane q.lane).markList) :
    (s.choosePhase m).page q = (s.allChosen m).page q := by
  have hmarks := (mountOnly_allChosen s m).markList
  rw [State.choosePhase_eq, State.page_retireMarked_of_not .b, State.page_retireMarked_of_not .a]
  · rintro hlane
    rwa [hmarks, ← hlane]
  · rintro hlane
    rwa [((pagesOnly_retireMarked _ .a).mountOnly).markList, hmarks, ← hlane]

theorem State.page_choosePhase_of_marked {l : LaneId} {i : Nat} (hi : i ∈ (s.lane l).markList)
    (hindex : i < (s.lane l).pages.length) : ((s.choosePhase m).page { lane := l, index := i }).state = .retired := by
  have hall := mountOnly_allChosen s m
  have hafter := hall.trans (pagesOnly_retireMarked (s.allChosen m) .a).mountOnly
  rw [State.choosePhase_eq]
  cases l with
  | a =>
    rw [State.page_retireMarked_of_not .b (fun h => by cases h)]
    exact State.page_retireMarked_of_mem (by rwa [hall.markList]) (by rwa [hall.length])
  | b => exact State.page_retireMarked_of_mem (by rwa [hafter.markList]) (by rwa [hafter.length])

/-- A page without a class is judged by none and chosen for none. -/
theorem State.page_choosePhase_of_unclassed (hmark : q.index ∉ (s.lane q.lane).markList)
    (h : ∀ c ∈ m.classed, c.page ≠ q) : (s.choosePhase m).page q = s.page q := by
  rw [State.page_choosePhase_of_unmarked hmark, State.allChosen, State.page_chooseAll_of_not, State.page_mapCleared]
  · exact State.page_foldl_of_not fun c hc t => t.page_judgeClass_of_ne (h c hc)
  · rintro n - x hx hpage
    obtain ⟨c, hc, hcx, -⟩ := class_of_chosenOf hx
    exact h c hc (hcx.trans hpage)

theorem Classed.cls_of_candidateFor (h : c.candidateFor n = some v) : c.cls = .candidate n v.1 v.2 := by
  obtain ⟨p, cls⟩ := c
  cases cls with
  | candidate k seq ok =>
    simp only [Classed.candidateFor, Option.ite_none_right_eq_some, Option.some.injEq] at h
    obtain ⟨rfl, rfl⟩ := h
    rfl
  | _ => cases h

theorem Classed.candidateFor_inj {k : Nat} {w : Nat × Bool} (h : c.candidateFor k = some w)
    (g : c.candidateFor n = some v) : k = n := by
  have heq := (Classed.cls_of_candidateFor h).symm.trans (Classed.cls_of_candidateFor g)
  injection heq

section
variable (honce : (m.classed.map (·.page)).Nodup) (hc : c ∈ m.classed)
  (hindex : c.page.index < (s.lane c.page.lane).pages.length) (hmark : c.page.index ∉ (s.lane c.page.lane).markList)
include honce hc

/-- A copy chosen on the page of a class classified once is that class's candidate. -/
theorem candidateFor_of_chosen (h : chosenOf (candidatesOf m.classed n) = some x) (hpage : x.page = c.page) :
    c.candidateFor n = some (x.seq, x.intact) := by
  obtain ⟨d, hd, hdx, hv⟩ := class_of_chosenOf h
  rwa [List.inj_on_of_nodup_map honce hd hc (hdx.trans hpage)] at hv

include hindex hmark

theorem State.page_choosePhase_of_not_chosen
    (h : ∀ n < s.cfg.capacity, ∀ x, chosenOf (candidatesOf m.classed n) = some x → x.page ≠ c.page) :
    (s.choosePhase m).page c.page = s.judgedAs c.cls (s.page c.page) := by
  rw [State.page_choosePhase_of_unmarked hmark, State.allChosen,
    State.page_chooseAll_of_not fun n hn => h n (List.mem_range.1 hn), State.page_mapCleared,
    State.page_judged honce hc hindex]

/-- A page that is no candidate is judged by its class alone. -/
theorem State.page_choosePhase_of_no_candidate (h : ∀ n, c.candidateFor n = none) :
    (s.choosePhase m).page c.page = s.judgedAs c.cls (s.page c.page) := by
  refine State.page_choosePhase_of_not_chosen honce hc hindex hmark fun n _ x hx hpage => ?_
  have hv := candidateFor_of_chosen honce hc hx hpage
  rw [h n] at hv
  cases hv

/-- The page of the chosen copy is MAPPED with its logical page as owner (09 R146). -/
theorem State.page_choosePhase_of_chosen (hn : n < s.cfg.capacity)
    (h : chosenOf (candidatesOf m.classed n) = some x) (hpage : x.page = c.page) :
    (s.choosePhase m).page c.page = { s.page c.page with state := .mapped n } := by
  have honly : ∀ k ∈ List.range s.cfg.capacity, ∀ y, chosenOf (candidatesOf m.classed k) = some y →
      y.page = x.page → k = n := fun k _ y hy hyx =>
    Classed.candidateFor_inj (candidateFor_of_chosen honce hc hy (hyx.trans hpage))
      (candidateFor_of_chosen honce hc h hpage)
  have hlength := (mountOnly_mapCleared s m).length c.page.lane
  have hchosen := State.page_chooseAll_of_chosen (s := s.mapCleared m) (List.mem_range.2 hn) h honly
    (by rwa [hpage, hlength])
  rw [State.page_choosePhase_of_unmarked hmark, State.allChosen, ← hpage, hchosen, hpage, State.page_mapCleared,
    State.page_judged honce hc hindex]
  cases c.cls <;> rfl

/-- A candidate is MAPPED where its page is the copy chosen, and judged by its counts where it is not (09 R146, R148). -/
theorem State.page_choosePhase_of_candidate (hv : c.candidateFor n = some v) : (s.choosePhase m).page c.page =
    if n < s.cfg.capacity ∧ (s.choosePhase m).mappedAt n c.page = true then { s.page c.page with state := .mapped n }
    else s.released (s.page c.page) := by
  have hjudged : s.judgedAs c.cls (s.page c.page) = s.released (s.page c.page) := by
    rw [Classed.cls_of_candidateFor hv]
    exact s.judged_eq_released _
  have hlone : ∀ k x, chosenOf (candidatesOf m.classed k) = some x → x.page = c.page → k = n := fun k x hx hpage =>
    Classed.candidateFor_inj (candidateFor_of_chosen honce hc hx hpage) hv
  by_cases hn : n < s.cfg.capacity
  · cases hchosen : chosenOf (candidatesOf m.classed n) with
    | none =>
      have hmem := mem_candidatesOf_of hc hv
      rw [chosenOf_eq_none.1 hchosen] at hmem
      cases hmem
    | some x =>
      have hmapped : (s.choosePhase m).mappedAt n c.page = true ↔ x.page = c.page := by
        rw [State.mappedAt, State.entry_choosePhase_of_chosen hn hchosen]
        exact beq_iff_eq
      by_cases hpage : x.page = c.page
      · rw [if_pos ⟨hn, hmapped.2 hpage⟩, State.page_choosePhase_of_chosen honce hc hindex hmark hn hchosen hpage]
      · rw [if_neg fun h => hpage (hmapped.1 h.2), ← hjudged]
        refine State.page_choosePhase_of_not_chosen honce hc hindex hmark fun k _ y hy hyc => hpage ?_
        obtain rfl := hlone k y hy hyc
        obtain rfl := Option.some_injective _ (hchosen.symm.trans hy)
        exact hyc
  · rw [if_neg fun h => hn h.1, ← hjudged]
    refine State.page_choosePhase_of_not_chosen honce hc hindex hmark fun k hk y hy hyc => hn ?_
    rwa [← hlone k y hy hyc]
end

/-! ### The notices (09 R147) -/

/-- The notices of phase CHOOSE. -/
abbrev State.tornNotices (s : State) (m : Mount) : List Notice :=
  Machine.tornNotices m.classed (List.range s.cfg.capacity)

theorem sameNotes_choosePhase (s : State) (m : Mount) :
    SameNotes ((s.tornNotices m).foldl State.giveTorn s) (s.choosePhase m) :=
  (((pagesOnly_judgeClasses s m.classed).sameNotes.foldl (t := s.mapCleared m) _).trans
    (sameNotes_chooseAll ..)).trans (pagesOnly_choosePhase s m).sameNotes

theorem State.mem_notices_choosePhase {a : Notice} (hroom : s.notices.length + m.classed.length ≤ 32)
    (hn : n < s.cfg.capacity) (h : a ∈ tornOf n (candidatesOf m.classed n)) :
    a ∈ (s.choosePhase m).notices ∧ (s.choosePhase m).faults.mountTorn = true := by
  obtain ⟨hnotices, -, hfaults⟩ := sameNotes_choosePhase s m
  have hmem : a ∈ s.tornNotices m := List.mem_flatMap.2 ⟨n, List.mem_range.2 hn, h⟩
  have hfew : (s.tornNotices m).length ≤ m.classed.length := length_tornNotices_le _ List.nodup_range
  rw [hnotices, hfaults, State.notices_foldl_giveTorn (by omega)]
  exact ⟨List.mem_append_right _ hmem, State.mountTorn_foldl_giveTorn (.inr (List.ne_nil_of_mem hmem))⟩

/-- Settles O52, clause by clause: the map, the pages by their classes, kept marks, and the notices of the choice. -/
theorem chooseTakesNewestIntact : Obligations.ChooseTakesNewestIntact := by
  intro s m
  refine ⟨s.length_remap_choosePhase m, fun n hn => ⟨fun hnone => ?_, fun c hc v hv hnewest hwhole => ?_⟩,
    fun honce c hc hindex hmark => ?_, fun l i hi hindex => State.page_choosePhase_of_marked hi hindex,
    fun p hmark hnone => State.page_choosePhase_of_unclassed hmark hnone, fun hroom n hn c hc v hv htorn => ?_,
    fun hintact => ?_⟩
  · exact State.entry_choosePhase_of_none hn (candidatesOf_eq_nil hnone)
  · exact State.entry_choosePhase_of_chosen hn (chosenOf_candidatesOf hc hv hnewest hwhole)
  · intro r after
    refine ⟨fun hretired => ?_, fun hjudged => ?_,
      fun n v hv => State.page_choosePhase_of_candidate honce hc hindex hmark hv⟩
    · have hnone : ∀ n, c.candidateFor n = none := fun n => by rw [Classed.candidateFor, hretired]
      exact (State.page_choosePhase_of_no_candidate honce hc hindex hmark hnone).trans (by rw [hretired]; rfl)
    · have hnone : ∀ n, c.candidateFor n = none := fun n => by
        rcases hjudged with h | h | h <;> rw [Classed.candidateFor, h]
      refine (State.page_choosePhase_of_no_candidate honce hc hindex hmark hnone).trans ?_
      rcases hjudged with h | h | h <;> rw [h] <;> exact s.judged_eq_released r
  · have hsorted := candidatesOf_sorted m.classed n
    have hmem := mem_candidatesOf_of hc hv
    intro torn
    refine ⟨fun ⟨d, hd, hwhole⟩ hnewer => ?_, fun hall hnewest => ?_⟩
    · refine State.mem_notices_choosePhase hroom hn (mem_tornOf_passed hsorted hmem ?_ fun z hz hz' => ?_)
      · obtain ⟨w, hw, hintact⟩ := Option.any_eq_true _ _ |>.1 hwhole
        exact ⟨_, mem_candidatesOf_of hd hw, hintact⟩
      · obtain ⟨e, he, -, hr⟩ := class_of_mem_candidatesOf hz
        simpa [hr, hz'] using hnewer e he
    · refine State.mem_notices_choosePhase hroom hn (mem_tornOf_kept hsorted hmem (fun z hz => ?_) fun z hz hne => ?_)
      · obtain ⟨e, he, -, hr⟩ := class_of_mem_candidatesOf hz
        simpa [hr] using hall e he
      · obtain ⟨e, he, hpage, hr⟩ := class_of_mem_candidatesOf hz
        have hec : e ≠ c := by
          rintro rfl
          obtain rfl := Option.some_injective _ (hv.symm.trans hr)
          exact hne (by rw [hpage])
        simpa [hr] using hnewest e he hec
  · have hnothing : s.tornNotices m = [] := List.flatMap_eq_nil_iff.2 fun n hn => tornOf_eq_nil fun z hz => by
      obtain ⟨e, he, -, hr⟩ := class_of_mem_candidatesOf hz
      simpa [hr] using hintact e he n (List.mem_range.1 hn)
    obtain ⟨hnotices, -, hfaults⟩ := sameNotes_choosePhase s m
    rw [hnotices, hfaults, hnothing]
    exact ⟨rfl, rfl⟩

end Sys2Proof.Machine
end

section
/-! PROOFS. The end of a mount: the free lists in the order of wear and index, the sequence counter, the space state, the
MOUNT_DONE notice, the mode and the interval timer (09 R150, R151). -/

namespace Sys2Proof.Machine

variable {s t u : State} {m : Mount} {l : LaneId} {bytes : List Byte} {i : Nat} {x : Lane}

/-! ### The free list rebuilt (01 R10, 09 R150) -/

theorem foldr_insertFree_perm (pages : List PageRec) (is : List Nat) : (is.foldr (insertFree pages) []).Perm is := by
  induction is with
  | nil => exact .refl _
  | cons i is ih => exact (insertFree_perm ..).trans (ih.cons i)

theorem foldr_insertFree_sorted (pages : List PageRec) {is : List Nat} (h : is.Nodup) :
    (is.foldr (insertFree pages) []).Pairwise fun a b => freeBefore pages a b = true := by
  induction is with
  | nil => exact .nil
  | cons i is ih =>
    obtain ⟨hi, his⟩ := List.nodup_cons.1 h
    exact pairwise_insertFree _ _ _ (mt (foldr_insertFree_perm pages is).mem_iff.1 hi) (ih his)

theorem Lane.rebuilt_sorted (x : Lane) :
    x.rebuilt.freeList.Pairwise fun a b => freeBefore x.rebuilt.pages a b = true :=
  foldr_insertFree_sorted x.pages (List.nodup_range.filter _)

theorem Lane.mem_rebuilt (x : Lane) (j : Nat) : j ∈ x.rebuilt.freeList ↔
    j < x.rebuilt.pages.length ∧ (x.rebuilt.pages.getD j freshPage).state = .free := by
  have hperm := foldr_insertFree_perm x.pages
    ((List.range x.pages.length).filter fun i => (x.pages.getD i freshSystemPage).state == .free)
  refine hperm.mem_iff.trans ?_
  rw [List.mem_filter, List.mem_range, beq_iff_eq]
  refine and_congr_right fun hj => ?_
  change _ ↔ (x.pages.getD j freshPage).state = .free
  rw [List.getD_eq_getElem _ _ hj, List.getD_eq_getElem _ _ hj]

/-! ### REBUILD (09 R150) -/

/-- The lanes have their free lists and the counter a value. -/
def State.listsRebuilt (s : State) (seq : Nat) : State :=
  { s with laneA := s.laneA.rebuilt, laneB := s.laneB.rebuilt, seq := seq }


theorem State.rebuildPhase_frame (s : State) (m : Mount) {q : Nat} (hq : seqAfterMount m.seqHigh s.formatBase = q) :
    ∃ notices dropped faults, s.rebuildPhase m = { s.listsRebuilt q with
      space := (s.listsRebuilt q).spaceNow, notices := notices, dropped := dropped, faults := faults } := by
  have hphase : s.rebuildPhase m = (s.listsRebuilt q).recompute.give ((s.listsRebuilt q).recompute.mountNotice m) :=
    hq ▸ rfl
  obtain ⟨_, _, _, hgiven⟩ := State.give_frame (s.listsRebuilt q).recompute ((s.listsRebuilt q).recompute.mountNotice m)
  obtain ⟨space, _, _, _, hframe⟩ := State.recompute_frame (s.listsRebuilt q)
  have hspace : space = (s.listsRebuilt q).spaceNow := by
    rw [← State.recompute_space, hframe]
  rw [hphase, hgiven, hframe, hspace]
  exact ⟨_, _, _, rfl⟩

theorem State.rebuildPhase_fields (s : State) (m : Mount) :
    (s.rebuildPhase m).cfg = s.cfg ∧ (s.rebuildPhase m).remap = s.remap ∧ (s.rebuildPhase m).slots = s.slots ∧
      (s.rebuildPhase m).causes = s.causes ∧ (s.rebuildPhase m).cursor = s.cursor ∧
      (s.rebuildPhase m).timer = s.timer ∧ (s.rebuildPhase m).longCmd = s.longCmd := by
  obtain ⟨_, _, _, h⟩ := s.rebuildPhase_frame m rfl
  rw [h]
  exact ⟨rfl, rfl, rfl, rfl, rfl, rfl, rfl⟩

theorem State.lane_rebuildPhase (s : State) (m : Mount) (l : LaneId) :
    (s.rebuildPhase m).lane l = (s.lane l).rebuilt := by
  obtain ⟨_, _, _, h⟩ := s.rebuildPhase_frame m rfl
  rw [h]
  cases l <;> rfl

/-- The counter has its value, and the space state is judged by it and by the new free lists (01 R17 to R19). -/
theorem State.rebuildPhase_seq_space (s : State) (m : Mount) :
    (s.rebuildPhase m).seq = seqAfterMount m.seqHigh s.formatBase ∧
      (s.rebuildPhase m).space = (s.rebuildPhase m).spaceNow := by
  obtain ⟨q, hq⟩ : ∃ q, seqAfterMount m.seqHigh s.formatBase = q := ⟨_, rfl⟩
  obtain ⟨_, _, _, h⟩ := s.rebuildPhase_frame m hq
  have hnow : (s.rebuildPhase m).spaceNow = (s.listsRebuilt q).spaceNow := by
    rw [h]
    exact State.spaceNow_congr rfl rfl fun l => by cases l <;> exact ⟨rfl, rfl⟩
  rw [hnow, hq, h]
  exact ⟨rfl, rfl⟩

theorem State.mem_notices_give {n : Notice} (h : (s.give n).notices.length < 32) : n ∈ (s.give n).notices := by
  have hroom : s.notices.length < 32 := (give_prefix s n).length_le.trans_lt h
  rw [State.notices_give_of_room s n hroom]
  exact List.mem_append_right _ (List.mem_singleton_self n)

/-- MOUNT_DONE is given, where the queue has room. -/
theorem State.mountDone_rebuildPhase (h : (s.rebuildPhase m).notices.length < 32) :
    ∃ n ∈ (s.rebuildPhase m).notices, n.kind = .mountDone := ⟨_, State.mem_notices_give h, rfl⟩

/-! ### The mode leaves MOUNTING (09 R151) -/

theorem State.modeNow_eq_run : s.modeNow = .run ↔ s.causes.any = false := by
  unfold State.modeNow
  cases s.causes.any
  · simp
  · cases s.allFree <;> simp

theorem State.modeNow_congr (hcauses : t.causes = s.causes) (hslots : t.slots = s.slots) : t.modeNow = s.modeNow := by
  rw [State.modeNow, State.modeNow, State.allFree, State.allFree, hcauses, hslots]

/-- The timer as the mode leaves MOUNTING: in RUN it starts (08 R129). -/
def State.timerLeft (s : State) : Option Nat :=
  if s.causes.any then s.timer else if s.cfg.patrolInterval = 0 then none else some s.cfg.patrolInterval

/-- The mode follows the drain cause set, the cursor the capacity, and in RUN the timer starts. -/
def State.modeLeft (s : State) : State :=
  { s with
    mount := none, mode := s.modeNow, cursor := if s.cfg.capacity ≤ s.cursor then 0 else s.cursor
    timer := s.timerLeft }

theorem State.leaveMount_eq (s : State) : s.leaveMount =
    if s.longCmd = some .remount
    then s.modeLeft.finishLong (if s.modeLeft.anyOffline then resultLaneOffline else resultOk) none
    else s.modeLeft := by
  have hleft : ∀ t : State, t = ({ s with mount := none, mode := s.modeNow } : State).clampCursor →
      (if t.mode = .run then t.startTimer else t) = s.modeLeft := by
    rintro t rfl
    cases hcauses : s.causes.any with
    | false =>
      refine (if_pos (State.modeNow_eq_run.2 hcauses)).trans ?_
      rw [State.modeLeft, State.timerLeft, hcauses]
      rfl
    | true =>
      refine (if_neg fun h => ?_).trans ?_
      · rw [State.modeNow_eq_run.1 h] at hcauses
        cases hcauses
      · rw [State.modeLeft, State.timerLeft, hcauses]
        rfl
  exact congrArg (fun u : State => if u.longCmd = some .remount
    then u.finishLong (if u.anyOffline then resultLaneOffline else resultOk) none else u) (hleft _ rfl)

theorem State.finishLong_frame {c : LongCmd} (h : s.longCmd = some c) (r : Nat) (p : Option Nat) :
    ∃ notices dropped faults,
      s.finishLong r p = { s with longCmd := none, notices := notices, dropped := dropped, faults := faults } ∧
        s.notices <+: notices := by
  rw [State.finishLong, h]
  exact ⟨_, _, _, rfl, give_prefix { s with longCmd := none } _⟩

theorem State.leaveMount_frame (s : State) : ∃ longCmd notices dropped faults,
    s.leaveMount = { s.modeLeft with
      longCmd := longCmd, notices := notices, dropped := dropped, faults := faults } ∧
    s.notices <+: notices ∧ (s.longCmd = some .remount → longCmd = none) ∧
    (s.longCmd ≠ some .remount → longCmd = s.longCmd) := by
  rw [State.leaveMount_eq]
  split
  next h =>
    obtain ⟨_, _, _, hdone, hprefix⟩ := State.finishLong_frame (s := s.modeLeft) h
      (if s.modeLeft.anyOffline then resultLaneOffline else resultOk) none
    exact ⟨_, _, _, _, hdone, hprefix, fun _ => rfl, fun hne => absurd h hne⟩
  next h => exact ⟨s.longCmd, s.notices, s.dropped, s.faults, rfl, List.prefix_rfl, fun he => absurd he h, fun _ => rfl⟩

theorem State.leaveMount_fields (s : State) :
    s.leaveMount.mount = none ∧ s.leaveMount.cfg = s.cfg ∧ s.leaveMount.remap = s.remap ∧
      s.leaveMount.slots = s.slots ∧ s.leaveMount.mode = s.modeNow ∧ s.leaveMount.timer = s.timerLeft ∧
      s.leaveMount.seq = s.seq ∧ s.leaveMount.space = s.space ∧
      s.leaveMount.cursor = (if s.cfg.capacity ≤ s.cursor then 0 else s.cursor) ∧
      ∀ l, s.leaveMount.lane l = s.lane l := by
  obtain ⟨_, _, _, _, h, -⟩ := s.leaveMount_frame
  rw [h]
  exact ⟨rfl, rfl, rfl, rfl, rfl, rfl, rfl, rfl, rfl, fun l => by cases l <;> rfl⟩

theorem State.leaveMount_longCmd (s : State) : (s.longCmd = some .remount → s.leaveMount.longCmd = none) ∧
    (s.longCmd ≠ some .remount → s.leaveMount.longCmd = s.longCmd) := by
  obtain ⟨_, _, _, _, h, -, hremount, hlong⟩ := s.leaveMount_frame
  rw [h]
  exact ⟨hremount, hlong⟩

theorem State.leaveMount_given (s : State) : s.notices <+: s.leaveMount.notices := by
  obtain ⟨_, _, _, _, h, hprefix, -⟩ := s.leaveMount_frame
  rw [h]
  exact hprefix

/-! ### The last page of the scan (09 R139; log 30) -/

/-- What the end of a step leaves of a mount that ended. -/
theorem Settled.ended (h : Settled s t) :
    t.mount = s.mount ∧ t.cfg = s.cfg ∧ t.remap = s.remap ∧ t.slots = s.slots ∧ t.mode = s.mode ∧ t.timer = s.timer ∧
      t.seq = s.seq ∧ t.space = s.space ∧ t.cursor = s.cursor ∧ t.longCmd = s.longCmd ∧ t.notices = s.notices := by
  obtain ⟨_, _, _, rfl, -⟩ := h
  exact ⟨rfl, rfl, rfl, rfl, rfl, rfl, rfl, rfl, rfl, rfl, rfl⟩

theorem State.scanAdvance_of_ended (h : (m.scan l).reading = none) (hother : (m.scan l.other).reading = none) :
    s.scanAdvance m = s.finishMount m := by
  refine if_pos ?_
  cases l <;> simp_all [Mount.scan, LaneId.other]

/-- A later notice stands behind those of the mount: with room left, MOUNT_DONE is among them. -/
theorem mountDone_of_prefix {ns : List Notice} (hprefix : (s.rebuildPhase m).notices <+: ns) (hroom : ns.length < 32) :
    ns.any (fun n => n.kind == .mountDone) = true := by
  obtain ⟨n, hn, hkind⟩ := State.mountDone_rebuildPhase (hprefix.length_le.trans_lt hroom)
  exact List.any_eq_true.2 ⟨n, hprefix.subset hn, beq_iff_eq.2 hkind⟩

/-- The state in which a mount ended on page tables and map as phase CHOOSE left them. -/
structure State.MountEnded (t s : State) (m : Mount) : Prop where
  mount : t.mount = none
  cfg : t.cfg = s.cfg
  remap : t.remap = s.remap
  slots : t.slots = s.slots
  mode : t.mode = s.modeNow
  timer : t.timer = s.timerLeft
  seq : t.seq = seqAfterMount m.seqHigh s.formatBase
  space : t.space = t.spaceNow
  cursor : t.cursor = if s.cfg.capacity ≤ s.cursor then 0 else s.cursor
  remount : s.longCmd = some .remount → t.longCmd = none
  longCmd : s.longCmd ≠ some .remount → t.longCmd = s.longCmd
  notice : t.notices.length < 32 → t.notices.any (fun n => n.kind == .mountDone) = true
  lane : ∀ l, (t.lane l).pages = (s.lane l).rebuilt.pages ∧ (t.lane l).freeList = (s.lane l).rebuilt.freeList

theorem mountEnded_leaveMount (s : State) (m : Mount) : ((s.rebuildPhase m).leaveMount).MountEnded s m := by
  obtain ⟨hcfg, hremap, hslots, hcauses, hcursor, htimer, hlong⟩ := s.rebuildPhase_fields m
  obtain ⟨hseq, hspace⟩ := s.rebuildPhase_seq_space m
  obtain ⟨gmount, gcfg, gremap, gslots, gmode, gtimer, gseq, gspace, gcursor, glane⟩ :=
    (s.rebuildPhase m).leaveMount_fields
  obtain ⟨gremount, glong⟩ := (s.rebuildPhase m).leaveMount_longCmd
  have hnow : (s.rebuildPhase m).leaveMount.spaceNow = (s.rebuildPhase m).spaceNow :=
    State.spaceNow_congr gseq gcfg fun l => by rw [glane]; exact ⟨rfl, rfl⟩
  refine
    { mount := gmount
      cfg := gcfg.trans hcfg
      remap := gremap.trans hremap
      slots := gslots.trans hslots
      mode := gmode.trans (State.modeNow_congr hcauses hslots)
      timer := gtimer.trans ?_
      seq := gseq.trans hseq
      space := (gspace.trans hspace).trans hnow.symm
      cursor := gcursor.trans ?_
      remount := fun h => gremount (hlong.trans h)
      longCmd := fun h => (glong (hlong ▸ h)).trans hlong
      notice := mountDone_of_prefix (s.rebuildPhase m).leaveMount_given
      lane := fun l => ?_ }
  · rw [State.timerLeft, State.timerLeft, hcauses, htimer, hcfg]
  · rw [hcfg, hcursor]
  · rw [glane, State.lane_rebuildPhase]
    exact ⟨rfl, rfl⟩

theorem State.MountEnded.settled {e : State} (h : e.MountEnded s m) (hsettled : Settled e t) : t.MountEnded s m := by
  obtain ⟨hmount, hcfg, hremap, hslots, hmode, htimer, hseq, hspace, hcursor, hlong, hnotices⟩ := hsettled.ended
  refine ⟨hmount.trans h.mount, hcfg.trans h.cfg, hremap.trans h.remap, hslots.trans h.slots, hmode.trans h.mode,
    htimer.trans h.timer, hseq.trans h.seq, (hspace.trans h.space).trans hsettled.spaceNow.symm, hcursor.trans h.cursor,
    fun hl => hlong.trans (h.remount hl), fun hl => hlong.trans (h.longCmd hl), hnotices ▸ h.notice, fun l => ?_⟩
  obtain ⟨_, _, hlane⟩ := hsettled.lane l
  rw [hlane]
  exact h.lane l

/-- The last page of the scan: the mount ends on page tables and map that phase CHOOSE left. -/
theorem lastScanRead_ends (hq : s.Quiet) (hbytes : bytes.length = 88) (hmount : s.mount = some m)
    (hphase : m.phase = .scan) (hreading : (m.scan l).reading = some i) (hlast : i + 1 = s.geometry.pagesPerLane)
    (hother : (m.scan l.other).reading = none) :
    ∃ t w n, exec (.scanReadDone l bytes) s = .next t ∧ t.MountEnded w n ∧ MountOnly s w ∧
      w.remap.length = s.cfg.capacity ∧ n.seqHigh = seqSeen m.seqHigh (readTag (tagBytes bytes)) := by
  generalize hp : ({ lane := l, index := i } : PPage) = p
  generalize hn : m.scanned p (s.scanClass p bytes) (readTag (tagBytes bytes)) none = n
  have hend : (n.scan l).reading = none := by
    subst hn hp
    rw [Mount.scan_scanned]
  have hends : (n.scan l.other).reading = none := by
    subst hn hp
    rwa [Mount.scan_scanned_other]
  have hseen : n.seqHigh = seqSeen m.seqHigh (readTag (tagBytes bytes)) := by
    subst hn
    rfl
  generalize hv : (s.pageScanned p bytes).settleSuspects n l = v
  have hread : MountOnly s v :=
    (mountOnly_pageScanned s p bytes).trans (hv ▸ (pagesOnly_settleSuspects _ n l).mountOnly)
  have hchosen := hread.trans (mountOnly_choosePhase v n)
  have hexec : exec (.scanReadDone l bytes) s = .next (v.finishMount n).settle := by
    rw [exec_scanReadDone hbytes, State.scanRead_eq hmount hphase hreading, if_neg (by omega), hp, hn,
      State.scanOnward_of_ended hend, hv, State.scanAdvance_of_ended hend hends]
  have hlink : (v.finishMount n).link = [] := (lossKept_finishMount v n).link.trans (hread.link.trans hq.2)
  rw [settle_of_quiet hlink] at hexec
  exact ⟨_, v.choosePhase n, _, hexec, (mountEnded_leaveMount _ _).settled (settled_refresh _), hchosen,
    (v.length_remap_choosePhase n).trans (congrArg WorkCfg.capacity hread.cfg), hseen⟩

/-- Settles O53: the state in which the mount ends, field by field, and the free lists by `Lane.rebuilt`. -/
theorem mountEnds : Obligations.MountEnds := by
  intro s l bytes hq _ hbytes m hmount hphase i hreading hlast hother high
  obtain ⟨t, w, n, hexec, hended, honly, hremap, hseen⟩ :=
    lastScanRead_ends hq hbytes hmount hphase hreading hlast hother
  obtain ⟨-, hcauses, hcfg, hbase, hslots, -, hcursor, htimer, hlong, -⟩ := honly.fields
  have hhigh : n.seqHigh = high := hseen.trans (seqSeen_eq ..)
  refine ⟨t, hexec, hended.mount, hended.cfg.trans hcfg, (congrArg List.length hended.remap).trans hremap,
    hended.slots.trans hslots, hended.mode.trans (State.modeNow_congr hcauses hslots), ?_, ?_, hended.space, ?_,
    fun h => hended.remount (hlong.trans h), fun h => (hended.longCmd (hlong ▸ h)).trans hlong, hended.notice,
    fun x => ?_⟩
  · rw [hended.timer, State.timerLeft, hcauses, htimer, hcfg]
  · rw [hended.seq, hhigh, hbase]
    rfl
  · rw [hended.cursor, hcfg, hcursor]
  · obtain ⟨hpages, hfree⟩ := hended.lane x
    simp only [State.page, hfree, hpages]
    exact ⟨Lane.rebuilt_sorted _, Lane.mem_rebuilt _⟩

end Sys2Proof.Machine
end

section
/-! PROOFS. Mode and drain causes, geometry and straps: what each block's operations keep of their agreement. The
operations of `Keeps` keep it by one lemma; the others are the changes of the drain cause set, the mount, and the
changes of timers, configuration, map and serial port. -/

namespace Sys2Proof.Machine

variable {s t u : State}

/-! ### Agreement inside a step -/

/-- Where mode and drain causes agree in the first state they agree in the second, and so for the geometry in force and
the straps. The output lines are judged at the end of the step. -/
structure Agrees (s t : State) : Prop where
  mode : s.ModeFollows → t.ModeFollows
  geometry : s.GeometryFromStraps → t.GeometryFromStraps

theorem Agrees.refl (s : State) : Agrees s s := ⟨id, id⟩

theorem Agrees.trans (h : Agrees s t) (g : Agrees t u) : Agrees s u := ⟨g.mode ∘ h.mode, g.geometry ∘ h.geometry⟩

/-- A change of nothing that the two laws speak of. -/
theorem Agrees.of_same (hmode : t.mode = s.mode) (hcauses : t.causes = s.causes) (hgeometry : t.geometry = s.geometry)
    (hstraps : t.pins.straps = s.pins.straps) : Agrees s t where
  mode h := by rwa [State.ModeFollows, hmode, hcauses]
  geometry h := by rwa [State.GeometryFromStraps, hgeometry, hstraps]

/-- Outside the changes of the cause set a mode can only pass from DRAINING to DRAINED, while a cause stands. -/
theorem Keeps.agrees (h : Keeps s t) : Agrees s t where
  mode hs := by
    rcases h.mode with hmode | ⟨-, hdrained, hany⟩
    · rwa [State.ModeFollows, hmode, h.causes]
    · intro _
      simp [hdrained, h.causes, hany]
  geometry hs := by rwa [State.GeometryFromStraps, h.geometry, h.pins]

/-- In MOUNTING the mode follows no cause. -/
theorem State.modeFollows_of_mounting (h : s.mode = .mounting) : s.ModeFollows := fun hne => absurd h hne

/-- The mode judged by the cause set and the pool follows the cause set. -/
theorem State.modeFollows_of_modeNow (h : s.mode = s.modeNow) : s.ModeFollows := fun _ => by
  rw [h, State.modeNow_eq_run]

/-! ### The drain cause set (10 R153 to R157) -/

/-- In MOUNTING the set alone changes, and so where it stays empty or stays non-empty. -/
theorem State.setCauses_of_same {c : Causes} (h : s.mode = .mounting ∨ s.causes.any = c.any) :
    s.setCauses c = { s with causes := c } := by
  unfold State.setCauses
  rcases h with hmode | hany
  · simp [hmode]
  · cases hc : c.any <;> simp [hany, hc]

/-- A cause that joins an empty set outside MOUNTING starts a drain. -/
theorem State.setCauses_starts {c : Causes} (hmode : s.mode ≠ .mounting) (hany : s.causes.any = false)
    (hc : c.any = true) : s.setCauses c = ({ s with causes := c } : State).drainStart := by
  simp [State.setCauses, hmode, hany, hc]

/-- The last cause that leaves the set outside MOUNTING ends the drain. -/
theorem State.setCauses_ends {c : Causes} (hmode : s.mode ≠ .mounting) (hany : s.causes.any = true)
    (hc : c.any = false) : s.setCauses c =
      { s with causes := c, mode := .run,
               timer := if s.cfg.patrolInterval = 0 then none else some s.cfg.patrolInterval } := by
  simp [State.setCauses, hmode, hany, hc, State.drainEnd, State.startTimer]

/-- The drain starts in the mode that its cause set and the pool give. -/
theorem State.drainStart_mode (s : State) : s.drainStart.mode = s.drainStart.modeNow := by
  obtain ⟨a, b, r, hstart, -⟩ := s.drainStart_spec
  rw [hstart]
  rfl

/-- What the start of a drain leaves as it was, with the timer stopped. -/
theorem State.drainStart_fields (s : State) :
    s.drainStart.pins = s.pins ∧ s.drainStart.geometry = s.geometry ∧ s.drainStart.causes = s.causes ∧
      s.drainStart.cfg = s.cfg ∧ s.drainStart.remap = s.remap ∧ s.drainStart.seq = s.seq ∧
      s.drainStart.space = s.space ∧ s.drainStart.cursor = s.cursor ∧ s.drainStart.link = s.link ∧
      s.drainStart.timer = none := by
  obtain ⟨_, _, _, hstart, -⟩ := s.drainStart_spec
  obtain ⟨_, _, _, _, _, _, _, _, _, _, _, _, hseals⟩ := (sealing_sealAll s).only
  rw [hstart, hseals]
  exact ⟨rfl, rfl, rfl, rfl, rfl, rfl, rfl, rfl, rfl, rfl⟩

theorem agrees_setCauses (s : State) (c : Causes) : Agrees s (s.setCauses c) := by
  by_cases hmode : s.mode = .mounting
  · rw [State.setCauses_of_same (.inl hmode)]
    exact ⟨fun _ => State.modeFollows_of_mounting hmode, id⟩
  cases hany : s.causes.any <;> cases hc : c.any
  · rw [State.setCauses_of_same (.inr (hany.trans hc.symm))]
    exact ⟨fun h hne => by simpa [hany, hc] using h hne, id⟩
  · rw [State.setCauses_starts hmode hany hc]
    obtain ⟨hpins, hgeometry, -⟩ := State.drainStart_fields { s with causes := c }
    exact ⟨fun _ => State.modeFollows_of_modeNow (State.drainStart_mode _), fun h => by
      rwa [State.GeometryFromStraps, hgeometry, hpins]⟩
  · rw [State.setCauses_ends hmode hany hc]
    exact ⟨fun _ _ => by simp [hc], id⟩
  · rw [State.setCauses_of_same (.inr (hany.trans hc.symm))]
    exact ⟨fun h hne => by simpa [hany, hc] using h hne, id⟩

theorem agrees_setPwarn (s : State) (level : Bool) : Agrees s (s.setPwarn level) := by
  have hpins : Agrees s { s with pins := { s.pins with pwarn := level } } := .of_same rfl rfl rfl rfl
  unfold State.setPwarn
  dsimp only
  split
  · exact hpins.trans (agrees_setCauses ..)
  · exact hpins

/-! ### The mount (chapter 9) -/

theorem agrees_mount (s : State) (m : Option Mount) : Agrees s { s with mount := m } := .of_same rfl rfl rfl rfl

theorem agrees_startTimer (s : State) : Agrees s s.startTimer := .of_same rfl rfl rfl rfl

/-- The mode that ends a mount is judged by the cause set and the pool (10 R153). -/
theorem agrees_leaveMount (s : State) : Agrees s s.leaveMount := by
  obtain ⟨_, _, _, _, hleft, -⟩ := s.leaveMount_frame
  rw [hleft]
  exact ⟨fun _ => State.modeFollows_of_modeNow rfl, id⟩

theorem agrees_finishMount (s : State) (m : Mount) : Agrees s (s.finishMount m) :=
  ((keeps_choosePhase ..).trans (keeps_rebuildPhase ..)).agrees.trans (agrees_leaveMount _)

theorem agrees_scanAdvance (s : State) (m : Mount) : Agrees s (s.scanAdvance m) := by
  unfold State.scanAdvance
  split
  · exact agrees_finishMount ..
  · exact agrees_mount ..

theorem agrees_scanOnward (s : State) (m : Mount) (l : LaneId) : Agrees s (s.scanOnward m l) := by
  unfold State.scanOnward
  split
  · exact (keeps_settleSuspects ..).agrees.trans (agrees_scanAdvance ..)
  · exact agrees_scanAdvance ..

theorem agrees_endRecord (s : State) (m : Mount) : Agrees s (s.endRecord m) := by
  have hload : Agrees s (s.loadRecord m) := by
    unfold State.loadRecord
    split <;> exact .of_same rfl rfl rfl rfl
  exact hload.trans (agrees_scanAdvance ..)

theorem agrees_waitAdvance (s : State) (m : Mount) : Agrees s (s.waitAdvance m) := by
  unfold State.waitAdvance
  split
  · exact agrees_mount ..
  · split
    · exact agrees_mount ..
    · exact agrees_endRecord ..

theorem agrees_mountReady (s : State) (l : LaneId) : Agrees s (s.mountReady l) := by
  unfold State.mountReady
  split
  · exact .refl s
  · split
    · refine Agrees.trans ?_ (agrees_waitAdvance ..)
      exact .of_same rfl rfl rfl rfl
    · exact .refl s

theorem agrees_systemRead (s : State) (bytes : List Byte) : Agrees s (s.systemRead bytes) := by
  unfold State.systemRead
  split
  · exact .refl s
  · split
    · dsimp only
      split
      · exact (keeps_setPage ..).agrees.trans (agrees_mount ..)
      · exact (keeps_setPage ..).agrees.trans (agrees_endRecord ..)
    · exact .refl s

theorem agrees_scanRead (s : State) (l : LaneId) (bytes : List Byte) : Agrees s (s.scanRead l bytes) := by
  unfold State.scanRead
  split
  · exact .refl s
  · split
    · exact .refl s
    · split
      · exact ((keeps_setPage ..).trans (keeps_noteClass ..)).agrees.trans (agrees_scanOnward ..)
      · exact .refl s

theorem agrees_mountAfterLoss (s : State) (l : LaneId) : Agrees s (s.mountAfterLoss l) := by
  unfold State.mountAfterLoss
  split
  · exact .refl s
  · dsimp only
    split
    · exact agrees_waitAdvance ..
    · split
      · exact agrees_endRecord ..
      · exact agrees_mount ..
    · split
      · exact agrees_scanOnward ..
      · exact agrees_scanAdvance ..
    · exact .refl s
    · exact .refl s

theorem agrees_goOffline (s : State) (l : LaneId) (page : Option Nat) (cause : Nat) :
    Agrees s (s.goOffline l page cause) := by
  unfold State.goOffline
  split
  · unfold State.mountLose
    refine Agrees.trans ?_ ((keeps_takeOffline ..).agrees.trans (agrees_mountAfterLoss ..))
    split
    · exact (keeps_patrolRead ..).agrees
    · exact .refl s
  · exact (keeps_loseLane ..).agrees

theorem agrees_beginRemount (s : State) : Agrees s s.beginRemount where
  mode _ := State.modeFollows_of_mounting rfl
  geometry h := by
    have hbounds := bounds_beginRemount s
    rwa [State.GeometryFromStraps, hbounds.straps, hbounds.geometry]

theorem agrees_leaveReset (s : State) : Agrees s s.leaveReset :=
  ⟨fun _ => State.modeFollows_of_mounting rfl, fun _ => rfl⟩

/-! ### Records, timers and the maintenance port -/

theorem agrees_resize (s : State) (n : Nat) : Agrees s (s.resize n) := by
  have hreleased := (Keeps.foldl State.releaseEntry keeps_releaseEntry
    (List.range' n (s.cfg.capacity - n)) s).agrees
  have hclamped : ∀ v : State, Agrees v v.clampCursor := fun v => .of_same rfl rfl rfl rfl
  refine hreleased.trans (Agrees.trans ?_ (hclamped _))
  refine Agrees.trans ?_ (keeps_recompute _).agrees
  exact .of_same rfl rfl rfl rfl

theorem agrees_formatMap (s : State) (base : Nat) : Agrees s (s.formatMap base) := by
  have hreleased := (Keeps.foldl State.releaseEntry keeps_releaseEntry (List.range s.cfg.capacity) s).agrees
  refine hreleased.trans (Agrees.trans ?_ (keeps_recompute _).agrees)
  exact .of_same rfl rfl rfl rfl

theorem agrees_applyRecord (s : State) (base : Nat) : Agrees s (s.applyRecord base) := by
  unfold State.applyRecord
  split
  · exact agrees_resize ..
  · exact agrees_formatMap ..
  · exact .refl s

theorem agrees_recordVerified (s : State) (i base : Nat) (data bytes : List Byte) :
    Agrees s (s.recordVerified i base data bytes) := by
  unfold State.recordVerified
  split
  · refine Agrees.trans ?_ (keeps_finishLong ..).agrees
    refine Agrees.trans ?_ (agrees_applyRecord ..)
    exact .of_same rfl rfl rfl rfl
  · exact ((keeps_endOp ..).trans (keeps_finishLong ..)).agrees

theorem agrees_patrolExpiry (s : State) : Agrees s s.patrolExpiry := by
  unfold State.patrolExpiry
  refine (agrees_startTimer s).trans ?_
  unfold State.patrolSearch
  split
  · exact .of_same rfl rfl rfl rfl
  · exact .refl _

theorem agrees_newInterval (s : State) : Agrees s s.newInterval := by
  unfold State.newInterval
  split
  · exact .of_same rfl rfl rfl rfl
  · split
    · exact agrees_startTimer s
    · exact .refl s

theorem agrees_setCfg (s : State) (f : WorkCfg → WorkCfg) : Agrees s (s.setCfg f) := .of_same rfl rfl rfl rfl

theorem agrees_newWearLimit (s : State) (v : Nat) : Agrees s (s.newWearLimit v) := by
  unfold State.newWearLimit
  dsimp only
  split
  · exact (agrees_setCfg ..).trans ((Keeps.foldl _ keeps_retireFree _ _).trans
      ((keeps_recompute ..).trans (keeps_exhaust ..))).agrees
  · exact agrees_setCfg ..

theorem agrees_newFloor (s : State) (v : Nat) : Agrees s (s.newFloor v) :=
  (agrees_setCfg ..).trans ((keeps_recompute ..).trans (keeps_exhaust ..)).agrees

theorem agrees_popSent (s : State) : Agrees s s.popSent := by
  unfold State.popSent
  split
  · exact .of_same rfl rfl rfl rfl
  · exact .refl s

theorem agrees_accept (s : State) (c : LongCmd) : Agrees s (s.accept c) := .of_same rfl rfl rfl rfl

theorem agrees_startFlush (s : State) : Agrees s s.startFlush := by
  have hmarked : Agrees s s.sealAll.markFlush := (keeps_sealAll s).agrees.trans (.of_same rfl rfl rfl rfl)
  unfold State.startFlush
  dsimp only
  split
  · exact hmarked.trans (keeps_finishLong ..).agrees
  · exact hmarked

theorem agrees_startQuiesce (s : State) : Agrees s s.startQuiesce :=
  (agrees_setCauses ..).trans (keeps_quiesceCheck ..).agrees

end Sys2Proof.Machine
end

section
/-! PROOFS. Mode and drain causes, output lines, geometry and straps at the end of every command: a step settles on a
state in which they agree as they did, or touches nothing they rest on, or leaves the cold part. -/

namespace Sys2Proof.Machine

variable {s t u : State} {o : Host.Outcome State Fault Refusal} {l : LaneId} {ready : Bool} {bytes : List Byte}

/-! ### How a step keeps the three laws -/

/-- The laws of O8 carry over from the first state to the second. -/
structure LawsKept (s t : State) : Prop where
  mode : s.ModeFollows → t.ModeFollows
  lines : s.LinesFollow → t.LinesFollow
  geometry : s.GeometryFromStraps → t.GeometryFromStraps

theorem LawsKept.refl (s : State) : LawsKept s s := ⟨id, id, id⟩

/-- The end of a step judges both lines anew. -/
theorem lawsKept_settle (h : Agrees s u) : LawsKept s u.settle := by
  obtain ⟨hmode, hgeometry⟩ := h.trans (keeps_settle u).agrees
  exact ⟨hmode, fun _ => linesFollow_refresh u.serveLink, hgeometry⟩

/-- The queue of commands, the serial port and WPROT are no part of the three laws. -/
theorem ClaimsUntouched.lawsKept (h : ClaimsUntouched s t) : LawsKept s t := by
  obtain ⟨_, _, _, _, rfl⟩ := h
  exact ⟨id, id, id⟩

/-- The laws hold of the cold part: it is in MOUNTING with both lines deasserted, no notice and no flag, and its
geometry is the one its straps give (01 R3, 09 R138, Table 9.1). -/
theorem lawsKept_powerUp (s : State) (straps : Straps) (pwarn wprot : Bool) :
    LawsKept s (s.powerUp straps pwarn wprot) :=
  ⟨fun _ => State.modeFollows_of_mounting rfl, fun _ => ⟨rfl, rfl⟩, fun _ => rfl⟩

theorem lawsKept_powerDown (s : State) : LawsKept s s.powerDown :=
  ⟨fun _ => State.modeFollows_of_mounting rfl, fun _ => ⟨rfl, rfl⟩, fun _ => rfl⟩

theorem lawsKept_enterReset (s : State) (straps : Straps) : LawsKept s (s.enterReset straps) :=
  ⟨fun _ => State.modeFollows_of_mounting rfl, fun _ => ⟨rfl, rfl⟩, fun _ => rfl⟩

/-! ### Outcomes -/

/-- Every next state that the outcome gives keeps the three laws. -/
def OutcomeLawful (s : State) (o : Host.Outcome State Fault Refusal) : Prop := ∀ t, o = .next t → LawsKept s t

theorem outcomeLawful_next (h : LawsKept s t) : OutcomeLawful s (.next t) := fun _ e => by cases e; exact h

theorem outcomeLawful_settle (h : Agrees s u) : OutcomeLawful s (.next u.settle) :=
  outcomeLawful_next (lawsKept_settle h)

theorem outcomeLawful_same : OutcomeLawful s (.next s) := outcomeLawful_next (.refl s)

theorem outcomeLawful_refused {r : Refusal} : OutcomeLawful s (.refused r) := fun _ e => by cases e

theorem outcomeLawful_fault {r : Fault} : OutcomeLawful s (.fault r) := fun _ e => by cases e

theorem outcomeLawful_ite {p : Prop} [Decidable p] {o q : Host.Outcome State Fault Refusal} (ho : OutcomeLawful s o)
    (hq : OutcomeLawful s q) : OutcomeLawful s (if p then o else q) := by
  split
  · exact ho
  · exact hq

theorem outcomeLawful_pageRead (ho : OutcomeLawful s o) :
    OutcomeLawful s (if bytes.length = Config.pageBytes then o else .fault .transferLength) :=
  outcomeLawful_ite ho outcomeLawful_fault

/-- A frame is lawful where its effect keeps the agreement; its refusal answers and changes nothing else (11 R161). -/
theorem outcomeLawful_exchange {params : Nat} {refused : Option Nat} {accepted : State} (h : Agrees s accepted) :
    OutcomeLawful s (s.exchange params refused accepted) := by
  refine outcomeLawful_ite (outcomeLawful_ite ?_ outcomeLawful_same) outcomeLawful_refused
  split
  · exact outcomeLawful_next ⟨id, id, id⟩
  · exact outcomeLawful_settle h

theorem agrees_reply (h : Agrees s u) (status : Nat) (data : List Byte) (popping : Bool) :
    Agrees s (u.reply status data popping) := h.trans (.of_same rfl rfl rfl rfl)

theorem outcomeLawful_reports {ps data : List Byte} : OutcomeLawful s (s.reports ps data) :=
  outcomeLawful_exchange (agrees_reply (.refl s) ..)

theorem outcomeLawful_setParam {ok : Nat → Bool} {v : List Byte} {effect : State → Nat → State}
    (h : ∀ n, Agrees s (effect s n)) : OutcomeLawful s (s.setParam ok v effect) :=
  outcomeLawful_exchange (agrees_reply (h _) ..)

/-- A record command posts its claim, or ends at once where lane A is OFFLINE (11 R164). -/
theorem agrees_recordPosted (h : Agrees s u) (c : LongCmd) : Agrees s (u.accept c).postRecord :=
  h.trans ((agrees_accept ..).trans (keeps_postRecord _).agrees)

/-- A grant takes the claim and senses the ready line before its claimant acts. -/
theorem agrees_granted {c : Claim} (h : Keeps (s.grant l c ready) u) : Agrees s u := by
  have hgrant : Agrees s (s.grant l c ready) := .of_same rfl rfl rfl rfl
  exact hgrant.trans h.agrees

/-! ### Grants (06 R100) -/

theorem hostReadGrant_lawful : OutcomeLawful s (execHostReadGrant l ready s) := by
  unfold execHostReadGrant
  split
  · exact outcomeLawful_settle (agrees_granted (keeps_grantHostRead ..))
  · exact outcomeLawful_same

theorem fillReadGrant_lawful : OutcomeLawful s (execFillReadGrant l ready s) := by
  unfold execFillReadGrant
  split
  · exact outcomeLawful_settle (agrees_granted (keeps_grantFillRead ..))
  · exact outcomeLawful_same

theorem recordProgramGrant_lawful : OutcomeLawful s (execRecordProgramGrant ready s) := by
  unfold execRecordProgramGrant
  split
  · exact outcomeLawful_settle (agrees_granted (keeps_grantRecord ..))
  · exact outcomeLawful_same

theorem commitGrant_lawful : OutcomeLawful s (execCommitGrant l ready s) := by
  unfold execCommitGrant
  split
  · exact outcomeLawful_settle (agrees_granted (keeps_grantCommit ..))
  · exact outcomeLawful_same

theorem relocationReadGrant_lawful : OutcomeLawful s (execRelocationReadGrant l ready s) := by
  unfold execRelocationReadGrant
  split
  · exact outcomeLawful_settle (agrees_granted (keeps_relocationGrant ..))
  · exact outcomeLawful_same

theorem markGrant_lawful : OutcomeLawful s (execMarkGrant l ready s) := by
  unfold execMarkGrant
  split
  · exact outcomeLawful_settle (agrees_granted (keeps_grantMark ..))
  · exact outcomeLawful_same

theorem patrolReadGrant_lawful : OutcomeLawful s (execPatrolReadGrant l ready s) := by
  unfold execPatrolReadGrant
  split
  · exact outcomeLawful_settle (agrees_granted (keeps_patrolGrant ..))
  · exact outcomeLawful_same

/-! ### Completions (chapters 5 to 8, 11 R164) -/

theorem hostReadDone_lawful : OutcomeLawful s (execHostReadDone l bytes s) := by
  refine outcomeLawful_pageRead ?_
  split
  · exact outcomeLawful_settle ((keeps_hostReadDone ..).agrees)
  · exact outcomeLawful_same

theorem fillReadDone_lawful : OutcomeLawful s (execFillReadDone l bytes s) := by
  refine outcomeLawful_pageRead ?_
  split
  · exact outcomeLawful_settle ((keeps_fillReadDone ..).agrees)
  · exact outcomeLawful_same

theorem relocationReadDone_lawful : OutcomeLawful s (execRelocationReadDone l bytes s) := by
  refine outcomeLawful_pageRead ?_
  split
  · exact outcomeLawful_settle ((keeps_relocationDone ..).agrees)
  · exact outcomeLawful_same

theorem patrolReadDone_lawful : OutcomeLawful s (execPatrolReadDone l bytes s) := by
  refine outcomeLawful_pageRead ?_
  split
  · exact outcomeLawful_settle ((keeps_patrolDone ..).agrees)
  · exact outcomeLawful_same

theorem commitProgramDone_lawful : OutcomeLawful s (execCommitProgramDone l s) := by
  unfold execCommitProgramDone
  split
  · exact outcomeLawful_settle ((keeps_commitProgrammed ..).agrees)
  · exact outcomeLawful_same

theorem commitVerifyDone_lawful : OutcomeLawful s (execCommitVerifyDone l bytes s) := by
  refine outcomeLawful_pageRead ?_
  split
  · exact outcomeLawful_settle ((keeps_commitVerified ..).agrees)
  · exact outcomeLawful_same

theorem recordProgramDone_lawful : OutcomeLawful s (execRecordProgramDone s) := by
  unfold execRecordProgramDone
  split
  · exact outcomeLawful_settle ((keeps_recordProgrammed ..).agrees)
  · exact outcomeLawful_same

theorem recordReadBackDone_lawful : OutcomeLawful s (execRecordReadBackDone bytes s) := by
  refine outcomeLawful_pageRead ?_
  split
  · exact outcomeLawful_settle (agrees_recordVerified ..)
  · exact outcomeLawful_same

theorem markProgramDone_lawful : OutcomeLawful s (execMarkProgramDone l s) := by
  unfold execMarkProgramDone
  split
  · exact outcomeLawful_settle (.of_same rfl rfl rfl rfl)
  · exact outcomeLawful_same

/-! ### Every command -/

theorem exec_lawful (c : Instr) (s : State) : OutcomeLawful s (exec c s) := by
  cases c with
  | hostReadGrant => exact hostReadGrant_lawful
  | fillReadGrant => exact fillReadGrant_lawful
  | recordProgramGrant => exact recordProgramGrant_lawful
  | commitGrant => exact commitGrant_lawful
  | relocationReadGrant => exact relocationReadGrant_lawful
  | markGrant => exact markGrant_lawful
  | patrolReadGrant => exact patrolReadGrant_lawful
  | hostReadDone => exact hostReadDone_lawful
  | fillReadDone => exact fillReadDone_lawful
  | relocationReadDone => exact relocationReadDone_lawful
  | patrolReadDone => exact patrolReadDone_lawful
  | commitProgramDone => exact commitProgramDone_lawful
  | commitVerifyDone => exact commitVerifyDone_lawful
  | recordProgramDone => exact recordProgramDone_lawful
  | recordReadBackDone => exact recordReadBackDone_lawful
  | markProgramDone => exact markProgramDone_lawful
  | powerOn => exact outcomeLawful_next (lawsKept_powerUp ..)
  | powerLoss => exact outcomeLawful_ite (outcomeLawful_next (lawsKept_powerDown s)) outcomeLawful_same
  | resetAssertion => exact outcomeLawful_ite (outcomeLawful_next (lawsKept_enterReset ..)) outcomeLawful_same
  | resetDeassertion => exact outcomeLawful_ite (outcomeLawful_settle (agrees_leaveReset s)) outcomeLawful_same
  | pwarnAssertion | pwarnDeassertion => exact outcomeLawful_settle (agrees_setPwarn ..)
  | wprotAssertion | wprotDeassertion => exact outcomeLawful_next (ClaimsUntouched.lawsKept ⟨_, _, _, _, rfl⟩)
  | hostWrite | hostRead =>
    exact outcomeLawful_ite (outcomeLawful_ite (outcomeLawful_settle (.of_same rfl rfl rfl rfl)) outcomeLawful_same)
      outcomeLawful_refused
  | holdTimerExpiry =>
    exact outcomeLawful_ite (outcomeLawful_ite (outcomeLawful_settle (keeps_seal ..).agrees) outcomeLawful_same)
      outcomeLawful_refused
  | patrolTimerExpiry => exact outcomeLawful_ite (outcomeLawful_settle (agrees_patrolExpiry s)) outcomeLawful_same
  | readTimeout | programTimeout | readyTimeout =>
    simp only [exec, execReadTimeout, execProgramTimeout, execReadyTimeout]
    split
    · exact outcomeLawful_settle (agrees_goOffline ..)
    · exact outcomeLawful_same
  | readySeen => exact outcomeLawful_ite (outcomeLawful_settle (keeps_readyComes ..).agrees) outcomeLawful_same
  | mountWaitReady => exact outcomeLawful_settle (agrees_mountReady ..)
  | systemPageReadDone => exact outcomeLawful_pageRead (outcomeLawful_settle (agrees_systemRead ..))
  | scanReadDone => exact outcomeLawful_pageRead (outcomeLawful_settle (agrees_scanRead ..))
  | getStatus | getConfig | getPools | getCounters => exact outcomeLawful_reports
  | inspectLogical | inspectPhysical => exact outcomeLawful_exchange (agrees_reply (.refl s) ..)
  | popNotice =>
    refine outcomeLawful_exchange ?_
    split <;> exact agrees_reply (.refl s) ..
  | popNoticeSent => exact outcomeLawful_settle (agrees_popSent s)
  | clearFaults => exact outcomeLawful_exchange (.of_same rfl rfl rfl rfl)
  | setHoldTime | setMigrationThreshold | setSoftLimit | setProgramTimeLimit | setAttentionMask =>
    simp only [exec, execSetHoldTime, execSetMigrationThreshold, execSetSoftLimit, execSetProgramTimeLimit,
      execSetAttentionMask]
    exact outcomeLawful_setParam fun _ => agrees_setCfg ..
  | setPatrolInterval =>
    simp only [exec, execSetPatrolInterval]
    exact outcomeLawful_setParam fun _ => (agrees_setCfg ..).trans (agrees_newInterval _)
  | setWearLimit => exact outcomeLawful_setParam (agrees_newWearLimit s)
  | setReserveFloor => exact outcomeLawful_setParam (agrees_newFloor s)
  | setWindow =>
    simp only [exec, execSetWindow]
    split
    · exact outcomeLawful_exchange (.refl s)
    · exact outcomeLawful_exchange (.of_same rfl rfl rfl rfl)
  | resume => exact outcomeLawful_exchange (agrees_reply (agrees_setCauses ..) ..)
  | saveConfig | format => exact outcomeLawful_exchange (agrees_recordPosted (.refl s) _)
  | sealWindow =>
    simp only [exec, execSealWindow]
    split
    · exact outcomeLawful_exchange (.refl s)
    · exact outcomeLawful_exchange (agrees_recordPosted (agrees_setCfg ..) _)
  | setCapacity =>
    simp only [exec, execSetCapacity]
    split
    · exact outcomeLawful_exchange (.refl s)
    · exact outcomeLawful_exchange (agrees_recordPosted (.refl s) _)
  | flush => exact outcomeLawful_exchange ((agrees_accept ..).trans (agrees_startFlush _))
  | quiesce => exact outcomeLawful_exchange ((agrees_accept ..).trans (agrees_startQuiesce _))
  | remount => exact outcomeLawful_exchange ((agrees_accept ..).trans (agrees_beginRemount _))
  | badFrame =>
    exact outcomeLawful_ite (outcomeLawful_ite (outcomeLawful_next ⟨id, id, id⟩) outcomeLawful_same)
      outcomeLawful_refused
  | unknownCommand =>
    simp only [exec, execUnknownCommand]
    split
    · exact outcomeLawful_exchange (.refl s)
    · exact outcomeLawful_ite outcomeLawful_same outcomeLawful_refused
  | selectStart => exact outcomeLawful_ite (outcomeLawful_next ⟨id, id, id⟩) outcomeLawful_same
  | selectEnd => exact outcomeLawful_next ⟨id, id, id⟩

theorem step_lawful (h : step s = .next t) : LawsKept s t := by
  unfold step at h
  split at h
  · exact outcomeLawful_same t h
  · obtain ⟨hmode, hlines, hgeometry⟩ := exec_lawful _ _ t h
    exact ⟨hmode, hlines, hgeometry⟩

/-- Settles O8, command by command: what a command does keeps mode and causes in agreement, and the end of the step
judges the lines. -/
theorem modeLinesGeometryKept : Obligations.ModeLinesGeometryKept := by
  intro s t h
  obtain ⟨hmode, hlines, hgeometry⟩ := step_lawful h
  exact ⟨hmode, hlines, hgeometry⟩

end Sys2Proof.Machine
end

section
/-! PROOFS. RESUME: the frame that takes MAINTENANCE out of the drain cause set, refused while a pending command may
still change the mode or the map (10 R157, R159). -/

namespace Sys2Proof.Machine

variable {s t : State}

theorem State.resumeBusy_of_pending {c : LongCmd} (hlong : s.longCmd = some c)
    (hc : c = .quiesce ∨ c = .format ∨ c.capacity.isSome = true) : s.resumeBusy = true := by
  rw [State.resumeBusy, hlong]
  cases c <;> simp_all [LongCmd.capacity]

theorem State.resumeBusy_of_free (hquiesce : s.longCmd ≠ some .quiesce) (hformat : s.longCmd ≠ some .format)
    (hcapacity : s.longCmd.bind LongCmd.capacity = none) : s.resumeBusy = false := by
  unfold State.resumeBusy
  split <;> simp_all [LongCmd.capacity]

/-- A listening port answers a refused frame with its status, and nothing else changes (11 R161). -/
theorem State.exchange_refused (h : s.Listening) (status : Nat) (accepted : State) :
    s.exchange 0 (some status) accepted = .next (s.replied status [] false) := by
  obtain ⟨⟨halive, -⟩, hserial⟩ := h
  have htakes : s.takesFrame = true := by simp [State.takesFrame, halive, hserial]
  rw [State.exchange, if_pos (Nat.zero_le _), if_pos htakes]
  rfl

/-- While the map or the mode may still change the frame is answered BUSY. -/
theorem exec_resume_busy (h : s.Listening) (hbusy : s.resumeBusy = true) :
    exec (.resume []) s = .next (s.replied 0x13 [] false) := by
  change s.exchange 0 (frameRefusal 0 true s.resumeBusy false false) _ = _
  rw [hbusy]
  exact State.exchange_refused h statusBusy _

/-- An accepted RESUME settles on the cause set without MAINTENANCE, and what that change brings. -/
theorem settlesTo_resume (h : s.Listening) (hfree : s.resumeBusy = false)
    (hset : s.setCauses { s.causes with maintenance := false } = t) (hlink : t.link = []) :
    SettlesTo (exec (.resume []) s) (t.replied 0x01 [] false) := by
  have hexec : exec (.resume []) s = .next (t.replied 0x01 [] false).refresh := by
    change s.exchange 0 (frameRefusal 0 true s.resumeBusy false false) _ = _
    rw [hset, hfree]
    exact State.exchange_taken h hlink
  exact ⟨_, hexec, settled_refresh _⟩

/-- Settles O57: the frame is refused or accepted by the pending long command, and an accepted one changes the cause set
alone or ends the drain. -/
theorem resumeEndsMaintenance : Obligations.ResumeEndsMaintenance := by
  intro s h
  refine ⟨fun c hlong hc => exec_resume_busy h (State.resumeBusy_of_pending hlong hc),
    fun hquiesce hformat hcapacity => ?_⟩
  have hlink : s.link = [] := h.1.2
  have hfree := State.resumeBusy_of_free hquiesce hformat hcapacity
  refine ⟨fun hmode hcauses => ?_, fun hstays => ?_⟩
  · refine settlesTo_resume h hfree ?_ hlink
    rw [hcauses]
    exact State.setCauses_ends hmode (by rw [hcauses]; rfl) rfl
  · refine settlesTo_resume h hfree (State.setCauses_of_same (hstays.imp_right fun hany => ?_)) hlink
    rcases hany with hpower | hmaintenance
    · simp [Causes.any, hpower]
    · simp [Causes.any, hmaintenance]

end Sys2Proof.Machine
end

section
/-! PROOFS. PWARN: the power warning that starts a drain with the seal of every OPEN slot, and the edges of PWARN that
start none (10 R153 to R157). -/

namespace Sys2Proof.Machine

variable {s t : State} {l : LaneId} {c : Claim}

/-! ### What seals leave of the other claims (02 R38) -/

/-- A seal posts no claim but a FILL_READ, and withdraws none. -/
theorem State.seal_mem_claims (s : State) (k : Nat) (hc : c.fillSlot = none) :
    c ∈ ((s.seal k).lane l).claims ↔ c ∈ (s.lane l).claims := by
  obtain ⟨-, e⟩ | ⟨sl, -, -, ⟨u, -, e⟩ | ⟨-, p, -, -, e⟩⟩ := s.seal_cases k
  · rw [e]
  · rw [e, State.enqueueTail, (poolOnly_exhaust _).lane]
    cases l <;> rfl
  · have hne : c ≠ .fillRead k := fun h => by rw [h] at hc; cases hc
    rw [e, State.awaiting, ← List.contains_iff_mem, contains_post _ _ _ hne, List.contains_iff_mem]
    cases l <;> rfl

theorem State.sealEach_mem_claims (s : State) (ks : List Nat) (hc : c.fillSlot = none) :
    c ∈ ((s.sealEach ks).lane l).claims ↔ c ∈ (s.lane l).claims := by
  induction ks generalizing s with
  | nil => exact .rfl
  | cons k ks ih => exact (ih (s.seal k)).trans (s.seal_mem_claims k hc)

/-! ### The start of a drain (10 R155) -/

/-- The outstanding patrol read leaves its record with its waiting claim (08 R131). -/
theorem State.withdrawPatrol_patrolRead (s : State) :
    ((∃ l, .patrolRead ∈ (s.lane l).claims) → s.withdrawPatrol.patrolRead = none) ∧
      ((∀ l, .patrolRead ∉ (s.lane l).claims) → s.withdrawPatrol.patrolRead = s.patrolRead) := by
  have hwaits : (s.laneA.claims.contains .patrolRead || s.laneB.claims.contains .patrolRead) = true ↔
      ∃ l, .patrolRead ∈ (s.lane l).claims := by
    rw [Bool.or_eq_true, List.contains_iff_mem, List.contains_iff_mem]
    exact ⟨fun h => h.elim (fun h => ⟨.a, h⟩) (fun h => ⟨.b, h⟩), fun ⟨l, h⟩ => by
      cases l <;> [exact .inl h; exact .inr h]⟩
  refine ⟨fun h => by rw [State.withdrawPatrol, if_pos (hwaits.mpr h)], fun h => ?_⟩
  rw [State.withdrawPatrol, if_neg (hwaits.not.mpr fun ⟨l, hl⟩ => h l hl)]

theorem State.drainStart_patrolRead (s : State) :
    ((∃ l, .patrolRead ∈ (s.lane l).claims) → s.drainStart.patrolRead = none) ∧
      ((∀ l, .patrolRead ∉ (s.lane l).claims) → s.drainStart.patrolRead = s.patrolRead) := by
  have hclaims : ∀ l, .patrolRead ∈ ((({ s.sealAll with mode := s.sealAll.modeNow, timer := none } : State).withdrawBoth
      .relocationRead).lane l).claims ↔ .patrolRead ∈ (s.lane l).claims := fun l => by
    rw [State.withdrawBoth_mem_claims, ← s.sealEach_mem_claims s.openSlots (c := .patrolRead) rfl]
    cases l <;> simp [State.sealAll]
  have hrecord : s.sealAll.patrolRead = s.patrolRead := by
    obtain ⟨_, _, _, _, _, _, _, _, _, _, _, _, he⟩ := (sealing_sealAll s).only
    rw [he]
  obtain ⟨hwaits, hidle⟩ := State.withdrawPatrol_patrolRead
    (({ s.sealAll with mode := s.sealAll.modeNow, timer := none } : State).withdrawBoth .relocationRead)
  simp only [hclaims] at hwaits hidle
  exact ⟨hwaits, fun h => (hidle h).trans hrecord⟩

/-- The pool of a drain that starts, seen from the end of the step. -/
theorem State.poolSealed_drainStart (s : State) (h : Settled s.drainStart t) :
    t.openSlots = [] ∧ t.PoolSealed s (fun sl => sl) := by
  obtain ⟨a, b, r, hstart, hclaims⟩ := s.drainStart_spec
  have hslots : t.slots = s.sealAll.slots := by rw [h.slots, hstart]
  have hqueue : t.commitQueue = s.sealAll.commitQueue := by rw [h.queue, hstart]
  refine ⟨?_, s.poolSealed_sealAll.marked (fun k => ?_) hqueue (fun k l hc => ?_) fun _ => rfl⟩
  · rw [← s.openSlots_sealAll]
    simp only [State.openSlots, State.usedSlots, hslots]
  · rw [State.slot_congr hslots]
    cases s.sealAll.slot k <;> rfl
  · rw [h.mem_claims rfl, hclaims]
    exact ⟨⟨hc, by simp⟩, by simp⟩

/-- No background read waits once a drain has started, and the end of the step posts none outside RUN. -/
theorem State.drainStart_no_background_reads (hmode : s.drainStart.mode ≠ .run) (l : LaneId) :
    .patrolRead ∉ (s.drainStart.refresh.lane l).claims ∧ .relocationRead ∉ (s.drainStart.refresh.lane l).claims := by
  have hsettled := settled_refresh s.drainStart
  obtain ⟨a, b, r, -, hclaims⟩ := s.drainStart_spec
  refine ⟨?_, fun hwaits => ?_⟩
  · rw [hsettled.mem_claims rfl, hclaims]
    simp
  · obtain ⟨-, -, hrun, -⟩ := (relocationClaims_refresh _).1 ⟨l, hwaits⟩
    exact hmode (hsettled.mode.symm.trans hrun)

/-- Outside the exhaustion condition no slot leaves the pool, and nothing that a departure changes does. -/
theorem State.drainStart_calm (h : s.exhaustion = false) :
    s.drainStart.port = s.port ∧ s.drainStart.answers = s.answers ∧ s.drainStart.longCmd = s.longCmd ∧
      s.drainStart.notices = s.notices ∧ s.drainStart.faults = s.faults ∧ s.drainStart.stats = s.stats := by
  obtain ⟨a, b, r, hstart, -⟩ := s.drainStart_spec
  obtain ⟨_, _, _, _, hstaged⟩ := staged_sealAll h
  rw [hstart, hstaged]
  exact ⟨rfl, rfl, rfl, rfl, rfl, rfl⟩

/-- With no slot OPEN the drain starts on the pool as it stands. -/
theorem State.drainStart_of_closed (h : s.openSlots = []) :
    s.drainStart.slots = s.slots ∧ s.drainStart.commitQueue = s.commitQueue := by
  have hnone : s.sealAll = s := by rw [State.sealAll, h]; rfl
  obtain ⟨a, b, r, hstart, -⟩ := s.drainStart_spec
  rw [hstart, hnone]
  exact ⟨rfl, rfl⟩

/-- While a cause stands the mode of a drain is the state of its pool. -/
theorem State.drainStart_mode_of_cause (h : s.causes.any = true) :
    s.drainStart.mode = if s.drainStart.allFree then .drained else .draining := by
  obtain ⟨-, -, hcauses, -⟩ := s.drainStart_fields
  rw [State.drainStart_mode, State.modeNow, hcauses, h, if_pos rfl]

/-! ### The level of PWARN (10 R153, R154) -/

/-- The level of PWARN with its cause in the set, and nothing else changed. -/
def State.powerCause (s : State) (level : Bool) : State :=
  { s with pins := { s.pins with pwarn := level }, causes := { s.causes with power := level } }

theorem State.powerCause_lane (s : State) (level : Bool) (l : LaneId) : (s.powerCause level).lane l = s.lane l := by
  cases l <;> rfl

theorem State.setPwarn_of_powered (h : s.powered = true) (level : Bool) : s.setPwarn level =
    ({ s with pins := { s.pins with pwarn := level } } : State).setCauses { s.causes with power := level } := if_pos h

theorem State.setPwarn_of_same {level : Bool} (h : s.powered = true)
    (hsame : s.mode = .mounting ∨ s.causes.any = (s.powerCause level).causes.any) :
    s.setPwarn level = s.powerCause level :=
  (State.setPwarn_of_powered h level).trans (State.setCauses_of_same hsame)

theorem State.powered_of_alive (h : s.alive = true) : s.powered = true := by
  rw [State.alive, Bool.and_eq_true] at h
  exact h.1

/-- The port takes no request while the part does not act. -/
theorem State.settle_of_not_alive (h : s.alive = false) : s.settle = s.refresh := by
  have hwait : ∀ r, s.serveOne r = s := fun r => by simp [State.serveOne, State.portTakes, h]
  rw [State.settle, State.serveLink_eq, List.foldl_fixed' hwait]

theorem settlesTo_setPwarn {level : Bool} (hlink : t.link = [] ∨ t.alive = false) (h : s.setPwarn level = t) :
    SettlesTo (.next (s.setPwarn level).settle) t := by
  rw [h]
  rcases hlink with hlink | hidle
  · exact settlesTo_next hlink
  · exact ⟨_, rfl, State.settle_of_not_alive hidle ▸ settled_refresh t⟩

/-- What a power warning leaves where it starts a drain (10 R155). -/
def State.WarningBegun (s t : State) : Prop :=
  t.pins.pwarn = true ∧ t.causes = { maintenance := false, power := true } ∧ t.openSlots = [] ∧
    t.mode = (if t.allFree then .drained else .draining) ∧ t.drainedLine = t.allFree ∧ t.timer = none ∧
    (∀ l, .patrolRead ∉ (t.lane l).claims ∧ .relocationRead ∉ (t.lane l).claims) ∧
    ((∃ l, .patrolRead ∈ (s.lane l).claims) → t.patrolRead = none) ∧
    ((∀ l, .patrolRead ∉ (s.lane l).claims) → t.patrolRead = s.patrolRead) ∧
    (s.openSlots = [] → t.slots = s.slots ∧ t.commitQueue = s.commitQueue) ∧
    t.PoolSealed s (fun sl => sl) ∧
    (s.exhaustion = false →
      t.port = s.port ∧ t.answers = s.answers ∧ t.longCmd = s.longCmd ∧ t.notices = s.notices ∧
      t.faults = s.faults ∧ t.stats = s.stats) ∧
    t.cfg = s.cfg ∧ t.remap = s.remap ∧ t.seq = s.seq ∧ t.space = s.space ∧ t.cursor = s.cursor

theorem exec_pwarnAssertion (hq : s.Quiet) (hmode : s.mode ≠ .mounting) (hany : s.causes.any = false) :
    exec .pwarnAssertion s = .next (s.powerCause true).drainStart.refresh := by
  have hdrain : s.setPwarn true = (s.powerCause true).drainStart :=
    (State.setPwarn_of_powered (State.powered_of_alive hq.1) true).trans
      (State.setCauses_starts hmode hany (by simp [Causes.any]))
  obtain ⟨-, -, -, -, -, -, -, -, hlink, -⟩ := (s.powerCause true).drainStart_fields
  change Host.Outcome.next (s.setPwarn true).settle = _
  rw [hdrain, settle_of_quiet (hlink.trans hq.2)]

/-- The drain of a power warning, at the end of its step. -/
theorem warning_begun (hany : s.causes.any = false) :
    s.WarningBegun (s.powerCause true).drainStart.refresh := by
  have hmaintenance : s.causes.maintenance = false := by
    rw [Causes.any, Bool.or_eq_false_iff] at hany
    exact hany.1
  have hmode := State.drainStart_mode_of_cause (s := s.powerCause true) (by simp [State.powerCause, Causes.any])
  have hsettled := settled_refresh (s.powerCause true).drainStart
  obtain ⟨hclosed, hpool⟩ := State.poolSealed_drainStart _ hsettled
  have hreads := State.drainStart_no_background_reads (s := s.powerCause true) (by rw [hmode]; split <;> simp)
  obtain ⟨hwaits, hidle⟩ := State.drainStart_patrolRead (s.powerCause true)
  simp only [State.powerCause_lane] at hwaits hidle
  have hcalm := State.drainStart_calm (s := s.powerCause true)
  have hkept := State.drainStart_of_closed (s := s.powerCause true)
  obtain ⟨hpins, -, hcauses, hcfg, hremap, hseq, hspace, hcursor, -, htimer⟩ := (s.powerCause true).drainStart_fields
  unfold State.WarningBegun
  generalize (s.powerCause true).drainStart = x at *
  generalize x.refresh = t at *
  obtain ⟨_, _, _, rfl, -⟩ := hsettled
  refine ⟨congrArg Pins.pwarn hpins, ?_, hclosed, hmode, ?_, htimer, hreads, hwaits, hidle, hkept, hpool, hcalm, hcfg,
    hremap, hseq, hspace, hcursor⟩
  · exact hcauses.trans (by simp [State.powerCause, hmaintenance])
  · change (x.mode == .drained) = x.allFree
    rw [hmode]
    cases x.allFree <;> rfl

/-- Settles O26: a warning that starts a drain, by the seals of the drain; every other edge of PWARN, by the change of
the cause set that it brings. -/
theorem powerWarningDrains : Obligations.PowerWarningDrains := by
  refine ⟨fun s hq hmode hany => ⟨_, exec_pwarnAssertion hq hmode hany, warning_begun hany⟩, fun s hq h => ?_,
    fun s hq hmode hcauses => ?_, fun s hq h => ?_, fun s hpower hreset hmode => ?_⟩
  · refine settlesTo_setPwarn (.inl hq.2)
      (State.setPwarn_of_same (State.powered_of_alive hq.1) (h.imp_right fun hany => ?_))
    rw [hany]
    simp [State.powerCause, Causes.any]
  · refine settlesTo_setPwarn (.inl hq.2) ?_
    rw [State.setPwarn_of_powered (State.powered_of_alive hq.1), hcauses]
    exact State.setCauses_ends hmode (by simp [Causes.any]) rfl
  · refine settlesTo_setPwarn (.inl hq.2)
      (State.setPwarn_of_same (State.powered_of_alive hq.1) (h.imp_right fun hany => ?_))
    rcases hany with hmaintenance | hnone
    · simp [State.powerCause, Causes.any, hmaintenance]
    · simp [State.powerCause, Causes.any, hnone]
  · have hidle : ∀ level, (s.powerCause level).alive = false := fun level => by
      simp [State.alive, State.powerCause, hreset]
    exact ⟨settlesTo_setPwarn (.inr (hidle true)) (State.setPwarn_of_same hpower (.inl hmode)),
      settlesTo_setPwarn (.inr (hidle false)) (State.setPwarn_of_same hpower (.inl hmode))⟩

end Sys2Proof.Machine
end

section
/-! PROOFS. The bounds of the notice queue, the pool, the relocation list and the pass-over counts at the end of every
command: what a command does keeps them, and so does the end of the step; the cold part is within all of them. -/

namespace Sys2Proof.Machine

variable {s t u : State} {o : Host.Outcome State Fault Refusal} {l : LaneId} {ready : Bool} {bytes : List Byte}

/-! ### How a step keeps the bounds -/

/-- The bounds of O7 carry over from the first state to the second. -/
structure LimitsKept (s t : State) : Prop where
  notices : s.NoticesBounded → t.NoticesBounded
  slots : s.SixteenSlots → t.SixteenSlots
  reloc : s.RelocBounded → t.RelocBounded
  passOver : s.PassOverBounded → t.PassOverBounded

theorem LimitsKept.refl (s : State) : LimitsKept s s := ⟨id, id, id, id⟩

theorem LimitsKept.trans (h : LimitsKept s t) (g : LimitsKept t u) : LimitsKept s u :=
  ⟨g.notices ∘ h.notices, g.slots ∘ h.slots, g.reloc ∘ h.reloc, g.passOver ∘ h.passOver⟩

theorem Bounds.limitsKept (h : Bounds s t) : LimitsKept s t where
  notices := fun ⟨hlength, hdropped⟩ => ⟨h.notices hlength, h.dropped hdropped⟩
  slots := h.slots.trans
  reloc := h.reloc
  passOver := fun ⟨ha, hb⟩ => ⟨h.passA ha, h.passB hb⟩

theorem limitsKept_settle (h : LimitsKept s u) : LimitsKept s u.settle := h.trans (keeps_settle u).bounds.limitsKept

/-- A part whose lists are empty and whose counts are 0, as power-on leaves them, is within every bound, whatever the part
was before (Table 9.1). -/
theorem limitsKept_of_cold (hnotices : t.notices = []) (hdropped : t.dropped = 0)
    (hslots : t.slots = List.replicate Config.slotCount none) (hreloc : t.relocList = []) (ha : t.laneA.passOver = 0)
    (hb : t.laneB.passOver = 0) : LimitsKept s t where
  notices := fun _ => by simp [State.NoticesBounded, hnotices, hdropped]
  slots := fun _ => by simp [State.SixteenSlots, hslots]
  reloc := fun _ => by simp [State.RelocBounded, hreloc]
  passOver := fun _ => by simp [State.PassOverBounded, ha, hb]

theorem limitsKept_powerUp (s : State) (straps : Straps) (pwarn wprot : Bool) :
    LimitsKept s (s.powerUp straps pwarn wprot) := limitsKept_of_cold rfl rfl rfl rfl rfl rfl

theorem limitsKept_powerDown (s : State) : LimitsKept s s.powerDown := limitsKept_of_cold rfl rfl rfl rfl rfl rfl

theorem limitsKept_enterReset (s : State) (straps : Straps) : LimitsKept s (s.enterReset straps) :=
  limitsKept_of_cold rfl rfl rfl rfl rfl rfl

theorem limitsKept_leaveReset (s : State) : LimitsKept s s.leaveReset := limitsKept_of_cold rfl rfl rfl rfl rfl rfl

/-! ### The pass-over count of a grant (06 R101) -/

/-- A grant that passes over a waiting COMMIT is one the starvation guard did not forbid: the count was below eight. -/
theorem Lane.passOver_lt_of_passed {x : Lane} {c : Claim} (h : x.nextClaim = some c) (hc : c ≠ .commit)
    (hcommit : .commit ∈ x.claims) : x.passOver < Config.passOverLimit := by
  by_contra hlimit
  rw [Lane.nextClaim_of_guard hcommit (Nat.not_lt.1 hlimit)] at h
  exact hc (Option.some.inj h).symm

theorem Lane.passOverAfter_le {x : Lane} {c : Claim} (h : x.nextClaim = some c) (hx : x.passOver ≤ Config.passOverLimit) :
    x.passOverAfter c ≤ Config.passOverLimit := by
  have hpassed : c ≠ .commit →
      (if x.claims.contains .commit then x.passOver + 1 else x.passOver) ≤ Config.passOverLimit := fun hc => by
    split
    · exact Lane.passOver_lt_of_passed h hc (List.contains_iff_mem.1 ‹_›)
    · exact hx
  cases c with
  | commit => exact Nat.zero_le _
  | hostRead | fillRead => exact hpassed (by simp)
  | recordProgram | relocationRead | mark | patrolRead => exact hx

theorem limitsKept_grant {c : Claim} (h : s.arbiter l = some c) (ready : Bool) : LimitsKept s (s.grant l c ready) := by
  have hnext : (s.lane l).nextClaim = some c := by
    unfold State.arbiter at h
    split at h
    · exact h
    · cases h
  refine ⟨id, id, id, fun ⟨ha, hb⟩ => ?_⟩
  cases l
  · exact ⟨Lane.passOverAfter_le hnext ha, hb⟩
  · exact ⟨ha, Lane.passOverAfter_le hnext hb⟩

/-! ### Outcomes -/

/-- Every next state that the outcome gives keeps the bounds. -/
def OutcomeBounded (s : State) (o : Host.Outcome State Fault Refusal) : Prop := ∀ t, o = .next t → LimitsKept s t

theorem outcomeBounded_next (h : LimitsKept s t) : OutcomeBounded s (.next t) := fun _ e => by cases e; exact h

theorem outcomeBounded_settle (h : Bounds s u) : OutcomeBounded s (.next u.settle) :=
  outcomeBounded_next (limitsKept_settle h.limitsKept)

theorem outcomeBounded_same : OutcomeBounded s (.next s) := outcomeBounded_next (.refl s)

theorem outcomeBounded_refused {r : Refusal} : OutcomeBounded s (.refused r) := fun _ e => by cases e

theorem outcomeBounded_fault {r : Fault} : OutcomeBounded s (.fault r) := fun _ e => by cases e

theorem outcomeBounded_ite {p : Prop} [Decidable p] {o q : Host.Outcome State Fault Refusal} (ho : OutcomeBounded s o)
    (hq : OutcomeBounded s q) : OutcomeBounded s (if p then o else q) := by
  split
  · exact ho
  · exact hq

theorem outcomeBounded_pageRead (ho : OutcomeBounded s o) :
    OutcomeBounded s (if bytes.length = Config.pageBytes then o else .fault .transferLength) :=
  outcomeBounded_ite ho outcomeBounded_fault

/-- A granted claimant acts on the state its grant left. -/
theorem outcomeBounded_grant {c : Claim} (h : s.arbiter l = some c) (hu : Keeps (s.grant l c ready) u) :
    OutcomeBounded s (.next u.settle) :=
  outcomeBounded_next (limitsKept_settle ((limitsKept_grant h ready).trans hu.bounds.limitsKept))

theorem outcomeBounded_exchange {params : Nat} {refused : Option Nat} {accepted : State} (h : Bounds s accepted) :
    OutcomeBounded s (s.exchange params refused accepted) := by
  refine outcomeBounded_ite (outcomeBounded_ite ?_ outcomeBounded_same) outcomeBounded_refused
  split
  · exact outcomeBounded_next (bounds_reply ..).limitsKept
  · exact outcomeBounded_settle h

theorem outcomeBounded_reports {ps data : List Byte} : OutcomeBounded s (s.reports ps data) :=
  outcomeBounded_exchange (bounds_reply ..)

theorem outcomeBounded_setParam {ok : Nat → Bool} {v : List Byte} {effect : State → Nat → State}
    (h : ∀ n, Bounds s (effect s n)) : OutcomeBounded s (s.setParam ok v effect) :=
  outcomeBounded_exchange ((h _).trans (bounds_reply ..))

theorem bounds_recordPosted (h : Bounds s u) (c : LongCmd) : Bounds s (u.accept c).postRecord :=
  h.trans ((bounds_accept ..).trans (keeps_postRecord _).bounds)

/-! ### Grants, completions and frames -/

theorem hostReadGrant_bounded : OutcomeBounded s (execHostReadGrant l ready s) := by
  unfold execHostReadGrant
  split
  · exact outcomeBounded_grant ‹_› (keeps_grantHostRead ..)
  · exact outcomeBounded_same

theorem fillReadGrant_bounded : OutcomeBounded s (execFillReadGrant l ready s) := by
  unfold execFillReadGrant
  split
  · exact outcomeBounded_grant ‹_› (keeps_grantFillRead ..)
  · exact outcomeBounded_same

theorem recordProgramGrant_bounded : OutcomeBounded s (execRecordProgramGrant ready s) := by
  unfold execRecordProgramGrant
  split
  · exact outcomeBounded_grant ‹_› (keeps_grantRecord ..)
  · exact outcomeBounded_same

theorem commitGrant_bounded : OutcomeBounded s (execCommitGrant l ready s) := by
  unfold execCommitGrant
  split
  · exact outcomeBounded_grant ‹_› (keeps_grantCommit ..)
  · exact outcomeBounded_same

theorem relocationReadGrant_bounded : OutcomeBounded s (execRelocationReadGrant l ready s) := by
  unfold execRelocationReadGrant
  split
  · exact outcomeBounded_grant ‹_› (keeps_relocationGrant ..)
  · exact outcomeBounded_same

theorem markGrant_bounded : OutcomeBounded s (execMarkGrant l ready s) := by
  unfold execMarkGrant
  split
  · exact outcomeBounded_grant ‹_› (keeps_grantMark ..)
  · exact outcomeBounded_same

theorem patrolReadGrant_bounded : OutcomeBounded s (execPatrolReadGrant l ready s) := by
  unfold execPatrolReadGrant
  split
  · exact outcomeBounded_grant ‹_› (keeps_patrolGrant ..)
  · exact outcomeBounded_same

/-- The end of a decoded read, of whichever reader. -/
theorem readDone_bounded : OutcomeBounded s (execHostReadDone l bytes s) ∧ OutcomeBounded s (execFillReadDone l bytes s) ∧
    OutcomeBounded s (execRelocationReadDone l bytes s) ∧ OutcomeBounded s (execPatrolReadDone l bytes s) := by
  refine ⟨outcomeBounded_pageRead ?_, outcomeBounded_pageRead ?_, outcomeBounded_pageRead ?_, outcomeBounded_pageRead ?_⟩
  · split
    · exact outcomeBounded_settle (keeps_hostReadDone ..).bounds
    · exact outcomeBounded_same
  · split
    · exact outcomeBounded_settle (keeps_fillReadDone ..).bounds
    · exact outcomeBounded_same
  · split
    · exact outcomeBounded_settle (keeps_relocationDone ..).bounds
    · exact outcomeBounded_same
  · split
    · exact outcomeBounded_settle (keeps_patrolDone ..).bounds
    · exact outcomeBounded_same

/-- The end of a commit's program and of its read-back. -/
theorem commitDone_bounded : OutcomeBounded s (execCommitProgramDone l s) ∧
    OutcomeBounded s (execCommitVerifyDone l bytes s) := by
  refine ⟨?_, outcomeBounded_pageRead ?_⟩
  · unfold execCommitProgramDone
    split
    · exact outcomeBounded_settle (keeps_commitProgrammed ..).bounds
    · exact outcomeBounded_same
  · split
    · exact outcomeBounded_settle (keeps_commitVerified ..).bounds
    · exact outcomeBounded_same

/-- The end of a record's program, of its read-back and of a mark's program. -/
theorem recordDone_bounded : OutcomeBounded s (execRecordProgramDone s) ∧
    OutcomeBounded s (execRecordReadBackDone bytes s) ∧ OutcomeBounded s (execMarkProgramDone l s) := by
  refine ⟨?_, outcomeBounded_pageRead ?_, ?_⟩
  · unfold execRecordProgramDone
    split
    · exact outcomeBounded_settle (keeps_recordProgrammed ..).bounds
    · exact outcomeBounded_same
  · split
    · exact outcomeBounded_settle (bounds_recordVerified ..)
    · exact outcomeBounded_same
  · unfold execMarkProgramDone
    split
    · exact outcomeBounded_settle (bounds_markDone ..)
    · exact outcomeBounded_same

/-- A frame whose parameters are read before it is judged changes nothing where they are invalid. -/
theorem windowAndCapacity_bounded (ps : List Byte) : OutcomeBounded s (execSetWindow ps s) ∧
    OutcomeBounded s (execSealWindow ps s) ∧ OutcomeBounded s (execSetCapacity ps s) := by
  refine ⟨?_, ?_, ?_⟩
  · unfold execSetWindow
    split
    · exact outcomeBounded_exchange (.refl s)
    · exact outcomeBounded_exchange ((bounds_setCfg ..).trans (bounds_reply ..))
  · unfold execSealWindow
    split
    · exact outcomeBounded_exchange (.refl s)
    · exact outcomeBounded_exchange (bounds_recordPosted (bounds_setCfg ..) _)
  · unfold execSetCapacity
    split
    · exact outcomeBounded_exchange (.refl s)
    · exact outcomeBounded_exchange (bounds_recordPosted (.refl s) _)

/-! ### Every command -/

theorem exec_bounded (c : Instr) (s : State) : OutcomeBounded s (exec c s) := by
  cases c with
  | hostReadGrant => exact hostReadGrant_bounded
  | fillReadGrant => exact fillReadGrant_bounded
  | recordProgramGrant => exact recordProgramGrant_bounded
  | commitGrant => exact commitGrant_bounded
  | relocationReadGrant => exact relocationReadGrant_bounded
  | markGrant => exact markGrant_bounded
  | patrolReadGrant => exact patrolReadGrant_bounded
  | hostReadDone => exact readDone_bounded.1
  | fillReadDone => exact readDone_bounded.2.1
  | relocationReadDone => exact readDone_bounded.2.2.1
  | patrolReadDone => exact readDone_bounded.2.2.2
  | commitProgramDone => exact (commitDone_bounded (bytes := [])).1
  | commitVerifyDone => exact commitDone_bounded.2
  | recordProgramDone => exact (recordDone_bounded (l := .a) (bytes := [])).1
  | recordReadBackDone => exact (recordDone_bounded (l := .a)).2.1
  | markProgramDone => exact (recordDone_bounded (bytes := [])).2.2
  | powerOn => exact outcomeBounded_next (limitsKept_powerUp ..)
  | powerLoss => exact outcomeBounded_ite (outcomeBounded_next (limitsKept_powerDown s)) outcomeBounded_same
  | resetAssertion => exact outcomeBounded_ite (outcomeBounded_next (limitsKept_enterReset ..)) outcomeBounded_same
  | resetDeassertion =>
    exact outcomeBounded_ite (outcomeBounded_next (limitsKept_settle (limitsKept_leaveReset s))) outcomeBounded_same
  | pwarnAssertion | pwarnDeassertion => exact outcomeBounded_settle (bounds_setPwarn ..)
  | wprotAssertion | wprotDeassertion => exact outcomeBounded_next ⟨id, id, id, id⟩
  | hostWrite | hostRead =>
    exact outcomeBounded_ite (outcomeBounded_ite (outcomeBounded_next (limitsKept_settle ⟨id, id, id, id⟩))
      outcomeBounded_same) outcomeBounded_refused
  | holdTimerExpiry =>
    exact outcomeBounded_ite (outcomeBounded_ite (outcomeBounded_settle (keeps_seal ..).bounds) outcomeBounded_same)
      outcomeBounded_refused
  | patrolTimerExpiry => exact outcomeBounded_ite (outcomeBounded_settle (bounds_patrolExpiry s)) outcomeBounded_same
  | readTimeout | programTimeout | readyTimeout =>
    simp only [exec, execReadTimeout, execProgramTimeout, execReadyTimeout]
    split
    · exact outcomeBounded_settle (bounds_goOffline ..)
    · exact outcomeBounded_same
  | readySeen => exact outcomeBounded_ite (outcomeBounded_settle (keeps_readyComes ..).bounds) outcomeBounded_same
  | mountWaitReady => exact outcomeBounded_settle (bounds_mountReady ..)
  | systemPageReadDone => exact outcomeBounded_pageRead (outcomeBounded_settle (bounds_systemRead ..))
  | scanReadDone => exact outcomeBounded_pageRead (outcomeBounded_settle (bounds_scanRead ..))
  | getStatus | getConfig | getPools | getCounters => exact outcomeBounded_reports
  | inspectLogical | inspectPhysical => exact outcomeBounded_exchange (bounds_reply ..)
  | popNotice =>
    refine outcomeBounded_exchange ?_
    split <;> exact bounds_reply ..
  | popNoticeSent => exact outcomeBounded_settle (bounds_popSent s)
  | clearFaults => exact outcomeBounded_exchange ((bounds_clearFaults s).trans (bounds_reply ..))
  | setHoldTime | setMigrationThreshold | setSoftLimit | setProgramTimeLimit | setAttentionMask =>
    simp only [exec, execSetHoldTime, execSetMigrationThreshold, execSetSoftLimit, execSetProgramTimeLimit,
      execSetAttentionMask]
    exact outcomeBounded_setParam fun _ => bounds_setCfg ..
  | setPatrolInterval =>
    simp only [exec, execSetPatrolInterval]
    exact outcomeBounded_setParam fun _ => (bounds_setCfg ..).trans (bounds_newInterval _)
  | setWearLimit => exact outcomeBounded_setParam (bounds_newWearLimit s)
  | setReserveFloor => exact outcomeBounded_setParam (bounds_newFloor s)
  | setWindow ps => exact (windowAndCapacity_bounded ps).1
  | sealWindow ps => exact (windowAndCapacity_bounded ps).2.1
  | setCapacity ps => exact (windowAndCapacity_bounded ps).2.2
  | resume => exact outcomeBounded_exchange ((bounds_setCauses ..).trans (bounds_reply ..))
  | saveConfig | format => exact outcomeBounded_exchange (bounds_recordPosted (.refl s) _)
  | flush => exact outcomeBounded_exchange ((bounds_accept ..).trans (bounds_startFlush _))
  | quiesce => exact outcomeBounded_exchange ((bounds_accept ..).trans (bounds_startQuiesce _))
  | remount => exact outcomeBounded_exchange ((bounds_accept ..).trans (bounds_beginRemount _))
  | badFrame =>
    exact outcomeBounded_ite (outcomeBounded_ite (outcomeBounded_next (bounds_reply ..).limitsKept) outcomeBounded_same)
      outcomeBounded_refused
  | unknownCommand =>
    simp only [exec, execUnknownCommand]
    split
    · exact outcomeBounded_exchange (.refl s)
    · exact outcomeBounded_ite outcomeBounded_same outcomeBounded_refused
  | selectStart => exact outcomeBounded_ite (outcomeBounded_next ⟨id, id, id, id⟩) outcomeBounded_same
  | selectEnd => exact outcomeBounded_next ⟨id, id, id, id⟩

/-- Settles O7, command by command: what a command does keeps the bounds, a grant by the starvation guard, and the end of
the step keeps them again. -/
theorem boundsKept : Obligations.BoundsKept := by
  intro s t h
  unfold step at h
  split at h
  · cases h
    exact ⟨id, id, id, id⟩
  · obtain ⟨hnotices, hslots, hreloc, hpassOver⟩ := exec_bounded _ _ t h
    exact ⟨hnotices, hslots, hreloc, hpassOver⟩

end Sys2Proof.Machine
end

section
/-! PROOFS. Command frames as bytes and as bits: the frame of a carried command decodes to it, whole or as the start of what
a select period shifts in, and a decoded frame is the frame of its command (11 R160, R161). -/

namespace Sys2Proof.Machine

variable {i : Instr} {frame : List Byte}

/-! ### A frame by its parts -/

theorem length_makeFrame (code : Byte) (ps : List Byte) : (makeFrame code ps).length = ps.length + 3 := by
  simp [makeFrame]

/-- A frame of few enough parameters passes check 1 of R161. -/
theorem frameBad_makeFrame (code : Byte) {ps : List Byte} (h : ps.length ≤ 16) : frameBad (makeFrame code ps) = false := by
  have hlen : ps.length % 256 = ps.length := Nat.mod_eq_of_lt (by omega)
  have hlast : (makeFrame code ps).getLastD 0#8 = crc8 (code :: BitVec.ofNat 8 ps.length :: ps) := by
    simp only [makeFrame, List.getLastD_concat]
  have hbody : (makeFrame code ps).dropLast = code :: BitVec.ofNat 8 ps.length :: ps := List.dropLast_concat
  rw [frameBad, hlast, hbody]
  simp [makeFrame, hlen, h, Config.maxParams]

theorem decodeFrame_makeFrame (code : Byte) {ps : List Byte} (h : ps.length ≤ 16) :
    decodeFrame (makeFrame code ps) = some (frameCommand code ps) := by
  have hparams : ((makeFrame code ps).drop 2).dropLast = ps := List.dropLast_concat
  rw [decodeFrame, if_pos (frameWhole_makeFrame code (by omega)), frameBad_makeFrame code h, hparams]
  rfl

/-- A frame written out: its length byte counts the parameters, and the CRC-8 of the bytes before it stands last. -/
theorem decodeFrame_of_parts {code len crc : Byte} (ps : List Byte) (hshort : ps.length ≤ 16)
    (hlen : BitVec.ofNat 8 ps.length = len) (hcrc : crc8 (code :: len :: ps) = crc) :
    decodeFrame (code :: len :: (ps ++ [crc])) = some (frameCommand code ps) := by
  subst hlen hcrc
  exact decodeFrame_makeFrame code hshort

/-- A whole frame that fails check 1 is kept whole. -/
theorem decodeFrame_of_bad (hwhole : frameWhole frame = true) (hbad : frameBad frame = true) :
    decodeFrame frame = some (.badFrame frame) := by
  rw [decodeFrame, if_pos hwhole, if_pos hbad]

theorem frameWhole_of_decode (h : decodeFrame frame = some i) : frameWhole frame = true := by
  unfold decodeFrame at h
  split at h
  · assumption
  · cases h

/-! ### Whole frames (11 R160) -/

theorem frameWhole_iff : frameWhole frame = true ↔
    ∃ code len rest, frame = code :: len :: rest ∧ rest.length = len.toNat + 1 := by
  constructor
  · intro h
    unfold frameWhole at h
    split at h
    · exact ⟨_, _, _, rfl, by simpa using h⟩
    · cases h
  · rintro ⟨code, len, rest, rfl, h⟩
    simp [frameWhole, h]

/-- The bytes that follow a whole frame in its select period are ignored. -/
theorem periodFrame_append (h : frameWhole frame = true) (more : List Byte) : periodFrame (frame ++ more) = some frame := by
  obtain ⟨code, len, rest, rfl, hrest⟩ := frameWhole_iff.1 h
  simp [periodFrame, ← hrest]

/-- A whole frame cut short is no frame. -/
theorem periodFrame_take (h : frameWhole frame = true) {m : Nat} (hm : m < frame.length) :
    periodFrame (frame.take m) = none := by
  obtain ⟨code, len, rest, rfl, hrest⟩ := frameWhole_iff.1 h
  match m with
  | 0 | 1 => rfl
  | m + 2 =>
    simp only [List.length_cons] at hm
    simp only [List.take_succ_cons, periodFrame, List.length_take]
    rw [if_neg (by omega)]

/-! ### Bits cut short -/

/-- Bits of a byte that is not complete spell none. -/
theorem bytesOfBits_of_lt {bits : List Bool} (h : bits.length < 8) : bytesOfBits bits = [] := by
  match bits with
  | [] | [_] | [_, _] | [_, _, _] | [_, _, _, _] | [_, _, _, _, _] | [_, _, _, _, _, _] | [_, _, _, _, _, _, _] => rfl
  | _ :: _ :: _ :: _ :: _ :: _ :: _ :: _ :: _ => simp at h; omega

/-- The bits of a byte are received as that byte. -/
theorem bytesOfBits_msbFirst_append (b : Byte) (bits : List Bool) :
    bytesOfBits (msbFirst b ++ bits) = b :: bytesOfBits bits :=
  congrArg (· :: bytesOfBits bits) (byteOfBits_msbFirst b)

/-- Of the bits of some bytes, cut short, those bytes are received that came whole. -/
theorem bytesOfBits_take (bs : List Byte) (n : Nat) : bytesOfBits ((lineBits bs).take n) = bs.take (n / 8) := by
  induction bs generalizing n with
  | nil => simp [lineBits, bytesOfBits]
  | cons b bs ih =>
    have hlen : (msbFirst b).length = 8 := rfl
    rcases Nat.lt_or_ge n 8 with hn | hn
    · rw [bytesOfBits_of_lt ((List.length_take_le ..).trans_lt hn), Nat.div_eq_of_lt hn, List.take_zero]
    · obtain ⟨m, rfl⟩ := Nat.exists_eq_add_of_le hn
      rw [lineBits_cons, ← hlen, List.take_length_add_append, bytesOfBits_msbFirst_append, ih, hlen,
        Nat.add_div_left m (by omega), List.take_succ_cons]

/-! ### The command of a select period -/

theorem periodCommand_of_whole (h : decodeFrame frame = some i) (more : List Byte) :
    periodCommand (clockedLevels (lineBits (frame ++ more))) = some i := by
  rw [periodCommand, shiftedIn_clocked, periodFrame_append (frameWhole_of_decode h)]
  exact h

theorem periodCommand_of_cut (h : decodeFrame frame = some i) {n : Nat} (hn : n < 8 * frame.length) :
    periodCommand (clockedLevels ((lineBits frame).take n)) = none := by
  rw [periodCommand, shiftedIn, sampledBits_clockedLevels, bytesOfBits_take,
    periodFrame_take (frameWhole_of_decode h) (by omega)]
  rfl

/-! ### The frame of a command -/

/-- The code and the parameters of a command's frame name that command, and there are at most sixteen parameters. -/
theorem decodeFrame_of_named {code : Byte} {ps : List Byte} (hname : frameCommand code ps = i)
    (hlen : (makeFrame code ps).length ≤ Config.maxParams + 3) : decodeFrame (makeFrame code ps) = some i := by
  rw [length_makeFrame] at hlen
  rw [decodeFrame_makeFrame code (by simpa [Config.maxParams] using hlen), hname]

theorem decodeFrame_of_encode (hcarried : i.carried = true) (hframe : encodeFrame i = some frame) :
    decodeFrame frame = some i := by
  cases i with
  | badFrame =>
    cases hframe
    simp only [Instr.carried, Bool.and_eq_true] at hcarried
    exact decodeFrame_of_bad hcarried.1 hcarried.2
  | unknownCommand =>
    cases hframe
    simp only [Instr.carried, Bool.and_eq_true, beq_iff_eq, decide_eq_true_eq] at hcarried
    rw [decodeFrame_makeFrame _ hcarried.1, hcarried.2]
  | getStatus | getConfig | getPools | getCounters | inspectLogical | inspectPhysical | popNotice | clearFaults
  | setHoldTime | setPatrolInterval | setMigrationThreshold | setWearLimit | setSoftLimit | setReserveFloor
  | setProgramTimeLimit | setAttentionMask | setWindow | resume | saveConfig | sealWindow | flush | quiesce | setCapacity
  | format | remount =>
    cases hframe
    exact decodeFrame_of_named rfl (of_decide_eq_true hcarried)
  | _ => cases hframe

/-- Settles O10: the frame decodes by its code and parameters; in a select period it is received whole, or cut short. -/
theorem encodedFramesDecode : Obligations.EncodedFramesDecode := by
  intro i frame hcarried hframe
  have hdecode := decodeFrame_of_encode hcarried hframe
  exact ⟨hdecode, periodCommand_of_whole hdecode, fun _ => periodCommand_of_cut hdecode⟩

/-! ### The command of a frame (12 Table 12.4) -/

/-- The command that a code and parameters name, a parameter of SET_PARAM or none among them, has them in its frame. -/
theorem encodeFrame_frameCommand (code : Byte) (ps : List Byte) :
    encodeFrame (frameCommand code ps) = some (makeFrame code ps) := by
  have hbyte : ∀ {b : Byte} {n : Nat}, b.toNat = n → b = BitVec.ofNat 8 n := fun h => by
    rw [← h, BitVec.ofNat_toNat, BitVec.setWidth_eq]
  unfold frameCommand
  split
  case h_9 hcode =>
    obtain rfl := hbyte hcode
    unfold setParamCommand
    split
    · rfl
    · split
      case h_9 => rfl
      all_goals
        rename_i hn
        rw [hbyte hn]
        rfl
  case h_19 => rfl
  all_goals
    rename_i hcode
    rw [hbyte hcode]
    rfl

/-- A whole frame that passes check 1 is made of its code and its parameters: its length byte counts them and its last byte
is their CRC-8. -/
theorem makeFrame_of_whole (hwhole : frameWhole frame = true) (hbad : frameBad frame = false) :
    makeFrame (frame.getD 0 0#8) (frame.drop 2).dropLast = frame := by
  obtain ⟨code, len, rest, rfl, hrest⟩ := frameWhole_iff.1 hwhole
  obtain ⟨ps, crc, rfl⟩ : ∃ ps crc, rest = ps ++ [crc] :=
    ⟨_, _, (List.dropLast_append_getLast (List.ne_nil_of_length_eq_add_one hrest)).symm⟩
  have hlen : BitVec.ofNat 8 ps.length = len := by
    rw [show ps.length = len.toNat by simpa using hrest, BitVec.ofNat_toNat, BitVec.setWidth_eq]
  have hcrc : crc8 (code :: len :: ps) = crc := by
    have hbody : (code :: len :: (ps ++ [crc])).dropLast = code :: len :: ps :=
      List.dropLast_concat (l₁ := code :: len :: ps)
    have hlast : (code :: len :: (ps ++ [crc])).getLastD 0#8 = crc := List.getLastD_concat (l := code :: len :: ps)
    rw [frameBad, hbody, hlast] at hbad
    simpa using (Bool.or_eq_false_iff.1 hbad).2
  simp [makeFrame, hlen, hcrc]

/-- Settles O11: a frame that fails check 1 is kept whole, and any other is made of the code and parameters its command
has in its frame. -/
theorem decodedFramesEncode : Obligations.DecodedFramesEncode := by
  intro frame i h
  have hwhole := frameWhole_of_decode h
  rw [decodeFrame, if_pos hwhole] at h
  split at h
  · cases h
    rfl
  · cases h
    rw [encodeFrame_frameCommand, makeFrame_of_whole hwhole (Bool.eq_false_iff.2 ‹_›)]

/-- Settles O15: four of the frames are written out of a code, its parameters and their CRC-8, and the last ends in another
byte than the CRC-8 of the two before it. -/
theorem framesWrittenOut : Obligations.FramesWrittenOut := by
  have hcrc : crc8 [0x01, 0x00] = 0x15 := by decide +kernel
  refine ⟨decodeFrame_of_parts [] (by decide) rfl hcrc,
    decodeFrame_of_parts [0x01, 0x00, 0x00, 0x07, 0xD0] (by decide) rfl rfl,
    decodeFrame_of_parts [0x01, 0x00, 0x10, 0x00, 0x1F, 0x02, 0x01] (by decide) rfl rfl,
    decodeFrame_of_parts [] (by decide) rfl rfl, ?_⟩
  have hbad : frameBad [0x01, 0x00, 0x16] = true := by
    change (_ || crc8 [0x01, 0x00] != 0x16) = true
    rw [hcrc]
    rfl
  exact decodeFrame_of_bad rfl hbad

end Sys2Proof.Machine
end

section
/-! PROOFS. The exchange of a command frame: what a listening port makes of a frame by the first check of R161 that applies,
and the numbers a frame carries. -/

namespace Sys2Proof.Machine

variable {s after : State} {params status : Nat} {refused : Option Nat} {valid busy wrongMode conflict : Bool}

/-! ### The outcome of an exchange (11 R160, R161) -/

theorem State.takesFrame_of_listening (h : s.Listening) : s.takesFrame = true := by
  obtain ⟨⟨halive, -⟩, hserial⟩ := h
  simp [State.takesFrame, halive, hserial]

/-- A listening port takes a frame that no check refuses, and with an empty link the step ends with the refresh. -/
theorem State.exchange_of_none (h : s.Listening) (hparams : params ≤ 255) (hnone : refused = none)
    (hlink : after.link = []) : s.exchange params refused after = .next after.refresh := by
  subst hnone
  rw [State.exchange, if_pos hparams, if_pos (State.takesFrame_of_listening h), settle_of_quiet hlink]

theorem settlesTo_exchange (h : s.Listening) (hparams : params ≤ 255) (hnone : refused = none) (hlink : after.link = []) :
    SettlesTo (s.exchange params refused after) after :=
  ⟨_, State.exchange_of_none h hparams hnone hlink, settled_refresh after⟩

/-- A listening port answers a refused frame with its status, and nothing else changes. -/
theorem State.exchange_of_some (h : s.Listening) (hparams : params ≤ 255) (hsome : refused = some status) :
    s.exchange params refused after = .next (s.replied status [] false) := by
  subst hsome
  rw [State.exchange, if_pos hparams, if_pos (State.takesFrame_of_listening h)]
  rfl

/-- A port that does not take a frame leaves the part as it was. -/
theorem State.exchange_of_not_taken (h : s.takesFrame = false) (hparams : params ≤ 255) :
    s.exchange params refused after = .next s := by
  simp [State.exchange, hparams, h]

/-! ### The checks of a known command in order (11 R161) -/

theorem frameRefusal_none (h : params ≤ 16) : frameRefusal params true false false false = none := by
  simp [frameRefusal, Config.maxParams, h]

theorem frameRefusal_invalid (h : params ≤ 16) :
    frameRefusal params false busy wrongMode conflict = some statusInvalid := by
  simp [frameRefusal, Config.maxParams, h]

theorem frameRefusal_busy (h : params ≤ 16) : frameRefusal params true true wrongMode conflict = some statusBusy := by
  simp [frameRefusal, Config.maxParams, h]

theorem frameRefusal_wrongMode (h : params ≤ 16) :
    frameRefusal params true false true conflict = some statusWrongMode := by
  simp [frameRefusal, Config.maxParams, h]

theorem frameRefusal_conflict (h : params ≤ 16) :
    frameRefusal params true false false true = some statusSealedConflict := by
  simp [frameRefusal, Config.maxParams, h]

theorem State.mounting_eq_true : s.mounting = true ↔ s.mode = .mounting := beq_iff_eq

theorem State.mounting_eq_false : s.mounting = false ↔ s.mode ≠ .mounting := beq_eq_false_iff_ne

theorem State.longBusy_of_none (h : s.longCmd = none) : s.longBusy = false := by simp [State.longBusy, h]

theorem State.notQuiesced_eq_false : s.notQuiesced = false ↔ s.mode = .drained ∧ s.causes.maintenance = true := by
  simp [State.notQuiesced]

theorem State.notQuiesced_eq_true : s.notQuiesced = true ↔ s.mode ≠ .drained ∨ s.causes.maintenance = false := by
  simp only [State.notQuiesced, Bool.not_eq_true', Bool.and_eq_false_iff, beq_eq_false_iff_ne]

/-! ### The numbers of a frame (12 R177) -/

theorem length_beBytes (n w : Nat) : (beBytes n w).length = n := by
  induction n generalizing w with
  | zero => rfl
  | succ n ih => rw [beBytes, List.length_append, ih, List.length_singleton]

theorem beNat_singleton (b : Byte) : beNat [b] = b.toNat := by simp [beNat]

theorem beNat_ofNat {n : Nat} (h : n < 256) : beNat [BitVec.ofNat 8 n] = n := beNat_beBytes_of_lt (n := 1) h

/-- The value of a SET_PARAM frame is the number its four bytes spell, where that is in range. -/
theorem paramValue_beBytes {ok : Nat → Bool} {n : Nat} (h : n < 2 ^ 32) :
    paramValue ok (beBytes 4 n) = if ok n then some n else none := by
  have hn : beNat (beBytes 4 n) = n := beNat_beBytes_of_lt (n := 4) h
  simp [paramValue, length_beBytes, hn]

theorem capacityParam_beBytes {g : Geometry} {n : Nat} (hlow : 16 ≤ n) (hhigh : n ≤ g.maxCapacity) :
    capacityParam g (beBytes 2 n) = some n := by
  have hn : beNat (beBytes 2 n) = n := beNat_beBytes_of_lt (n := 2) (hhigh.trans_lt g.maxCapacity_lt)
  simp [capacityParam, length_beBytes, hn, capacityOk, Config.minCapacity, hlow, hhigh]

theorem sealParam_ofNat {windows : List Window} {n : Nat} (hn : n ≤ 3) {w : Window} (hw : windows[n]? = some w)
    (hrange : w.first ≤ w.last) : sealParam windows [BitVec.ofNat 8 n] = some n := by
  have hempty : w.isEmpty = false := by simp [Window.isEmpty, hrange]
  simp [sealParam, beNat_ofNat (show n < 256 by omega), hw, hempty]

/-- The parameters of SET_WINDOW: the number of a window and its six bytes (04 R71). -/
theorem windowParams_windowBytes {capacity n : Nat} {w : Window} (hn : n ≤ 3) (hfirst : w.first < 65536)
    (hlast : w.last < 65536) (hprotection : w.protection ≠ .sealed) (hrange : w.last < w.first ∨ w.last < capacity) :
    windowParams capacity (BitVec.ofNat 8 n :: windowBytes w) = some (n, w) := by
  have hlength : (BitVec.ofNat 8 n :: windowBytes w).length = 7 := congrArg (· + 1) (length_windowBytes w)
  have hnumber : beNat [BitVec.ofNat 8 n] = n := beNat_ofNat (by omega)
  have hempty : w.isEmpty = true ∨ w.last < capacity := hrange.imp_left fun h => by simp [Window.isEmpty, h]
  rw [windowParams, if_pos hlength]
  simp [readWindow_windowBytes hfirst hlast, hnumber, hn, hprotection, hempty]

theorem logicalParam_beBytes {capacity n : Nat} (h : n < capacity) (hfits : n < 65536) :
    logicalParam capacity (beBytes 2 n) = some n := by
  have hn : beNat (beBytes 2 n) = n := beNat_beBytes_of_lt (n := 2) hfits
  simp [logicalParam, length_beBytes, hn, h]

theorem Geometry.pagesPerLane_lt (g : Geometry) : g.pagesPerLane < 65536 := by
  obtain ⟨two, size⟩ := g
  cases size <;> simp [Geometry.pagesPerLane]

theorem physicalParam_beBytes {g : Geometry} {code : Byte} {l : LaneId} {i : Nat} (hcode : laneOfCode code.toNat = some l)
    (hlane : g.has l = true) (hi : i < g.pagesPerLane) :
    physicalParam g (code :: beBytes 2 i) = some { lane := l, index := i } := by
  have hn : beNat (beBytes 2 i) = i := beNat_beBytes_of_lt (n := 2) (hi.trans g.pagesPerLane_lt)
  simp [physicalParam, length_beBytes, beNat_singleton, hcode, hlane, hn, hi]

end Sys2Proof.Machine
end

section
/-! PROOFS. The reporting commands, the notices and the fault summary: what each answers, and what CLEAR_FAULTS and the
last byte of a POP_NOTICE answer leave (11 R162, R167, R170, R171). -/

namespace Sys2Proof.Machine

variable {s : State}

/-! ### Commands taken in every mode -/

/-- A command without parameters that is taken in every mode settles on what it does. -/
theorem settlesTo_anyMode (h : s.Listening) {after : State} (hlink : after.link = []) :
    SettlesTo (s.exchange 0 (anyMode 0 true) after) after :=
  settlesTo_exchange h (Nat.zero_le _) (frameRefusal_none (Nat.zero_le _)) hlink

theorem settlesTo_reports (h : s.Listening) (data : List Byte) :
    SettlesTo (s.reports [] data) (s.replied 0x01 data false) :=
  settlesTo_anyMode h h.1.2

theorem settlesTo_inspectLogical (h : s.Listening) {n : Nat} (hn : n < s.cfg.capacity) (hfits : n < 65536) :
    SettlesTo (exec (.inspectLogical (beBytes 2 n)) s) (s.replied 0x01 (s.logicalReport n) false) := by
  have hnumber : beNat (beBytes 2 n) = n := beNat_beBytes_of_lt (n := 2) hfits
  change SettlesTo (execInspectLogical (beBytes 2 n) s) _
  rw [execInspectLogical, hnumber, logicalParam_beBytes hn hfits]
  exact settlesTo_exchange h (by simp [length_beBytes]) (frameRefusal_none (by simp [length_beBytes])) h.1.2

theorem settlesTo_inspectPhysical (h : s.Listening) {code : Byte} {l : LaneId} {i : Nat}
    (hcode : laneOfCode code.toNat = some l) (hlane : s.geometry.has l = true) (hi : i < s.geometry.pagesPerLane) :
    SettlesTo (exec (.inspectPhysical (code :: beBytes 2 i)) s)
      (s.replied 0x01 (s.physicalReport { lane := l, index := i }) false) := by
  change SettlesTo (execInspectPhysical (code :: beBytes 2 i) s) _
  rw [execInspectPhysical, physicalParam_beBytes hcode hlane hi]
  exact settlesTo_exchange h (by simp [length_beBytes]) (frameRefusal_none (by simp [length_beBytes])) h.1.2

/-! ### Fields of the reports (11 Table 11.3, 12 R177) -/

/-- GET_STATUS begins with the mode. -/
theorem State.statusReport_eq (s : State) : ∃ rest, s.statusReport = BitVec.ofNat 8 s.mode.code :: rest :=
  ⟨_, by simp only [State.statusReport, List.append_assoc]; exact List.singleton_append⟩

/-- GET_CONFIG gives capacity and hold time behind the geometry. -/
theorem State.configReport_eq (s : State) : ∃ rest, s.configReport =
    codeByte s.geometry.code ++ ((beBytes 2 s.cfg.capacity ++ beBytes 2 s.cfg.holdTime) ++ rest) :=
  ⟨_, by simp only [State.configReport, List.append_assoc]; rfl⟩

/-- GET_COUNTERS begins with the writes and the merged writes. -/
theorem State.countersReport_eq (s : State) : ∃ rest, s.countersReport =
    (beBytes 4 s.stats.hostWrites.toNat ++ beBytes 4 s.stats.merged.toNat) ++ rest :=
  ⟨_, by simp only [State.countersReport, List.append_assoc]; rfl⟩

theorem State.head_statusReport (s : State) : s.statusReport.head? = some (match s.mode with
    | .mounting => 0x00#8 | .run => 0x01#8 | .draining => 0x02#8 | .drained => 0x03#8) := by
  obtain ⟨rest, hreport⟩ := s.statusReport_eq
  rw [hreport]
  cases s.mode <;> rfl

theorem State.fields_configReport (s : State) :
    (s.configReport.drop 1).take 4 = beBytes 2 s.cfg.capacity ++ beBytes 2 s.cfg.holdTime := by
  obtain ⟨rest, hreport⟩ := s.configReport_eq
  rw [hreport]
  rfl

theorem State.take_countersReport (s : State) :
    s.countersReport.take 8 = beBytes 4 s.stats.hostWrites.toNat ++ beBytes 4 s.stats.merged.toNat := by
  obtain ⟨rest, hreport⟩ := s.countersReport_eq
  rw [hreport]
  rfl

theorem pageBytes_some (p : PPage) :
    pageBytes (some p) = [match p.lane with | .a => 0x00#8 | .b => 0x01#8] ++ beBytes 2 p.index := by
  obtain ⟨l, i⟩ := p
  cases l <;> rfl

theorem State.take_logicalReport {n q : Nat} {p : PPage} (h : s.entry n = .mapped p q) : (s.logicalReport n).take 10 =
    [0x01#8, (match p.lane with | .a => 0x00#8 | .b => 0x01#8)] ++ beBytes 2 p.index ++ beBytes 6 q := by
  have hbytes : (s.entry n).bytes = codeByte 1 ++ pageBytes (some p) ++ beBytes 6 q := by rw [h]; rfl
  rw [State.logicalReport, hbytes, pageBytes_some]
  rfl

theorem State.take_physicalReport (s : State) (p : PPage) : (s.physicalReport p).take 6 =
    [(match (s.page p).state with
      | .system => 0x00#8 | .free => 0x01#8 | .mapped _ => 0x02#8 | .target _ => 0x03#8 | .retired => 0x04#8)] ++
      beBytes 3 (s.page p).wear ++ beBytes 2 (s.page p).soft := by
  have htake : (s.physicalReport p).take 6 =
      codeByte (s.page p).state.code ++ beBytes 3 (s.page p).wear ++ beBytes 2 (s.page p).soft := rfl
  rw [htake]
  cases (s.page p).state <;> rfl

/-- Settles O54: each report is answered as its command is taken, and its first fields stand where their widths put
them. -/
theorem reportsAnswered : Obligations.ReportsAnswered := by
  refine ⟨fun s h => ⟨settlesTo_reports h _, settlesTo_reports h _, settlesTo_reports h _, settlesTo_reports h _,
    fun n => settlesTo_inspectLogical h, fun i hi => ⟨settlesTo_inspectPhysical h rfl rfl hi,
      fun htwo => settlesTo_inspectPhysical h rfl htwo hi⟩⟩, fun s => ?_⟩
  exact ⟨s.head_statusReport, s.fields_configReport, rfl, s.take_countersReport,
    fun n p q => State.take_logicalReport, s.take_physicalReport⟩

/-! ### Notices (11 R170, 12 Table 12.7) -/

theorem Notice.bytes_eq (n : Notice) : n.bytes =
    [BitVec.ofNat 8 n.kind.code, (match n.lane with | some .a => 0x00#8 | some .b => 0x01#8 | none => 0xFF#8)] ++
      (match n.index with | some i => beBytes 2 i | none => [0xFF#8, 0xFF#8]) ++
      (match n.logical with | some k => beBytes 2 k | none => [0xFF#8, 0xFF#8]) ++ beBytes 2 n.detail := by
  obtain ⟨kind, lane, index, logical, detail⟩ := n
  have hlane : optBytes 1 (lane.map laneCode) =
      [match lane with | some .a => 0x00#8 | some .b => 0x01#8 | none => 0xFF#8] := by
    match lane with
    | none | some .a | some .b => rfl
  rw [Notice.bytes, hlane]
  cases index <;> cases logical <;> rfl

theorem settlesTo_popNotice (h : s.Listening) {after : State} (hlink : after.link = [])
    (hafter : (match s.notices with
      | [] => s.reply statusOk [] false
      | n :: _ => s.reply statusOk n.bytes true) = after) : SettlesTo (exec (.popNotice []) s) after := by
  subst hafter
  exact settlesTo_anyMode h hlink

/-- The last byte of an answer that carries the head notice goes: the notice leaves the queue. -/
theorem settlesTo_popNoticeSent (h : s.Quiet) {frame : List Byte} (hserial : s.serial = .answering frame true) :
    SettlesTo (exec .popNoticeSent s) { s with notices := s.notices.tail, serial := .spent } := by
  have hsent : s.popSent = { s with notices := s.notices.tail, serial := .spent } := by rw [State.popSent, hserial]
  change SettlesTo (.next s.popSent.settle) _
  rw [hsent]
  exact settlesTo_next h.2

/-- Settles O55: the answer carries the head notice's bytes, the queue loses it as the last of them goes, and the fault
summary is what stands. -/
theorem noticesAndFaults : Obligations.NoticesAndFaults := by
  refine ⟨fun s h hnone => ?_, fun s h n hn => ?_, fun s h frame hserial => ⟨settlesTo_popNoticeSent h hserial, rfl⟩,
    fun s h => settlesTo_anyMode h h.1.2⟩
  · exact settlesTo_popNotice h h.1.2 (by rw [hnone]; rfl)
  · obtain ⟨rest, hnotices⟩ : ∃ rest, s.notices = n :: rest := List.head?_eq_some_iff.1 hn
    refine settlesTo_popNotice h h.1.2 ?_
    rw [hnotices]
    exact congrArg (s.replied 0x01 · true) n.bytes_eq

end Sys2Proof.Machine
end

section
/-! PROOFS. The four commands that end in a record program: what each leaves where it is accepted, and the mode that turns
SET_CAPACITY and FORMAT away (11 R163 to R165, 04 R72). -/

namespace Sys2Proof.Machine

variable {s : State}

/-! ### The claim of a record program (11 R164) -/

/-- An accepted record command waits for its program on lane A, or has ended where lane A is OFFLINE. -/
theorem State.postRecord_accept (hroom : s.notices.length < 32) (c : LongCmd) :
    (s.accept c).postRecord = (s.recordPosted c).replied 0x02 [] false := by
  unfold State.postRecord State.recordPosted
  change (if s.laneA.online then _ else _) = _
  split
  · rfl
  · rw [State.finishLong_eq (s := s.accept c) rfl hroom, State.doneNotice_eq]
    rfl

theorem State.link_recordPosted (s : State) (c : LongCmd) : (s.recordPosted c).link = s.link := by
  unfold State.recordPosted
  split <;> rfl

/-- The frame of a record command that no check refuses settles on its claim. -/
theorem settlesTo_recordCommand (h : s.Listening) {params : Nat} (hparams : params ≤ 16) {refused : Option Nat}
    (hnone : refused = none) {t : State} (hlink : t.link = s.link) (hroom : t.notices.length < 32) (c : LongCmd) :
    SettlesTo (s.exchange params refused (t.accept c).postRecord) ((t.recordPosted c).replied 0x02 [] false) := by
  rw [State.postRecord_accept hroom]
  exact settlesTo_exchange h (hparams.trans (by omega)) hnone ((t.link_recordPosted c).trans (hlink.trans h.1.2))

/-! ### SEAL_WINDOW (04 R72) -/

theorem State.sealWindow_eq {n : Nat} {w : Window} (hw : s.cfg.windows[n]? = some w) : s.sealWindow n =
    { s with cfg := { s.cfg with windows := s.cfg.windows.set n { w with protection := .sealed } } } := by
  rw [State.sealWindow, State.setCfg, List.modify_eq_set_getElem?, hw]
  rfl

/-! ### The frames of the four commands -/

theorem exec_sealWindow (s : State) {n : Nat} (hn : n ≤ 3) {w : Window} (hw : s.cfg.windows[n]? = some w)
    (hrange : w.first ≤ w.last) : exec (.sealWindow [BitVec.ofNat 8 n]) s =
      s.exchange 1 (frameRefusal 1 true s.longBusy s.mounting false)
        ((s.sealWindow n).accept (.sealWindow n)).postRecord := by
  change execSealWindow [BitVec.ofNat 8 n] s = _
  rw [execSealWindow, sealParam_ofNat hn hw hrange]
  rfl

theorem exec_setCapacity (s : State) {n : Nat} (hlow : 16 ≤ n) (hhigh : n ≤ s.geometry.maxCapacity) :
    exec (.setCapacity (beBytes 2 n)) s =
      s.exchange 2 (frameRefusal 2 true s.longBusy s.notQuiesced (s.shrinkHitsSeal n))
        (s.accept (.setCapacity n)).postRecord := by
  change execSetCapacity (beBytes 2 n) s = _
  rw [execSetCapacity, capacityParam_beBytes hlow hhigh]
  rfl

/-- Settles O58: each frame passes the checks of R161 in turn, or is turned away by the mode. -/
theorem recordCommandsAccepted : Obligations.RecordCommandsAccepted := by
  intro s h hlong hmode hroom
  have hfree := State.longBusy_of_none hlong
  have hserving := State.mounting_eq_false.2 hmode
  refine ⟨?_, fun n hn w hw hrange => ?_, fun hdrained hmaint => ⟨fun n hlow hhigh hunsealed => ?_, fun hunsealed => ?_⟩,
    fun haway => ⟨fun n hlow hhigh => ?_, ?_⟩⟩
  · refine settlesTo_recordCommand h (Nat.zero_le _) ?_ rfl hroom .saveConfig
    rw [hfree, hserving]
    exact frameRefusal_none (Nat.zero_le _)
  · rw [exec_sealWindow s hn hw hrange, hfree, hserving]
    have hsealed := settlesTo_recordCommand (t := s.sealWindow n) h (params := 1) (by decide)
      (frameRefusal_none (params := 1) (by decide)) rfl hroom (.sealWindow n)
    rwa [State.sealWindow_eq hw] at hsealed ⊢
  · rw [exec_setCapacity s hlow hhigh, hfree, State.notQuiesced_eq_false.2 ⟨hdrained, hmaint⟩, hunsealed]
    exact settlesTo_recordCommand h (by omega) (frameRefusal_none (by omega)) rfl hroom _
  · refine settlesTo_recordCommand h (Nat.zero_le _) ?_ rfl hroom .format
    rw [hfree, State.notQuiesced_eq_false.2 ⟨hdrained, hmaint⟩, hunsealed]
    exact frameRefusal_none (Nat.zero_le _)
  · rw [exec_setCapacity s hlow hhigh, hfree, State.notQuiesced_eq_true.2 haway]
    exact State.exchange_of_some h (by omega) (frameRefusal_wrongMode (by omega))
  · refine State.exchange_of_some h (Nat.zero_le _) ?_
    rw [hfree, State.notQuiesced_eq_true.2 haway]
    exact frameRefusal_wrongMode (Nat.zero_le _)

end Sys2Proof.Machine
end

section
/-! PROOFS. Frames that reach no command and commands turned away: each is answered by the first check of R161 that applies,
and what the port takes, and drives, in a select period (11 R160, R161). -/

namespace Sys2Proof.Machine

variable {s after : State} {ps : List Byte} {n : Nat}

/-! ### Parameters of a wrong length or out of range (11 R161 check 3) -/

theorem State.exchange_invalid (h : s.Listening) {params : Nat} (hparams : params ≤ 16) {busy wrongMode conflict : Bool} :
    s.exchange params (frameRefusal params false busy wrongMode conflict) after = .next (s.replied 0x12 [] false) :=
  State.exchange_of_some h (hparams.trans (by omega)) (frameRefusal_invalid hparams)

theorem State.exchange_of_nonempty (h : s.Listening) (hps : ps.length ≤ 16) (hne : ps ≠ [])
    {busy wrongMode conflict : Bool} : s.exchange ps.length (frameRefusal ps.length ps.isEmpty busy wrongMode conflict) after =
      .next (s.replied 0x12 [] false) := by
  rw [List.isEmpty_eq_false_iff.2 hne]
  exact State.exchange_invalid h hps

theorem exec_of_unwanted_params (h : s.Listening) (hps : ps.length ≤ 16) (hne : ps ≠ []) :
    ∀ c ∈ [Instr.getStatus ps, .getConfig ps, .getPools ps, .getCounters ps, .popNotice ps, .clearFaults ps,
        .resume ps, .saveConfig ps, .flush ps, .quiesce ps, .format ps, .remount ps],
      exec c s = .next (s.replied 0x12 [] false) := by
  have hrefused : ∀ {busy wrongMode conflict after},
      s.exchange ps.length (frameRefusal ps.length ps.isEmpty busy wrongMode conflict) after =
        .next (s.replied 0x12 [] false) := State.exchange_of_nonempty h hps hne
  simp only [List.forall_mem_cons, List.not_mem_nil, false_implies, implies_true, and_true]
  exact ⟨hrefused, hrefused, hrefused, hrefused, hrefused, hrefused, hrefused, hrefused, hrefused, hrefused, hrefused,
    hrefused⟩

theorem sealParam_eq_none {windows : List Window}
    (h : ps.length ≠ 1 ∨ (windows[beNat ps]?).all (fun w => decide (w.last < w.first)) = true) :
    sealParam windows ps = none := by
  rcases h with hlength | hempty
  · rw [sealParam, if_neg hlength]
  · unfold sealParam
    split
    · split
      · next w hw =>
        rw [hw] at hempty
        exact if_pos hempty
      · rfl
    · rfl

theorem capacityParam_eq_none {g : Geometry} (h : ps.length ≠ 2 ∨ beNat ps < 16 ∨ g.maxCapacity < beNat ps) :
    capacityParam g ps = none := by
  refine if_neg fun ⟨hlength, hok⟩ => ?_
  simp only [capacityOk, Bool.and_eq_true, decide_eq_true_eq] at hok
  have hmin : Config.minCapacity = 16 := rfl
  omega

theorem logicalParam_eq_none {capacity : Nat} (h : ps.length ≠ 2 ∨ capacity ≤ beNat ps) : logicalParam capacity ps = none :=
  if_neg (by omega)

/-- A number of one byte, wherever the byte stands. -/
theorem beNat_take_one {bs : List Byte} (h : bs ≠ []) : beNat (bs.take 1) = (bs.getD 0 0#8).toNat := by
  cases bs with
  | nil => exact absurd rfl h
  | cons b bs => exact beNat_singleton b

theorem laneOfCode_le {g : Geometry} {l : LaneId} {code : Nat} (hcode : laneOfCode code = some l) (hlane : g.has l = true) :
    code ≤ (if g.twoLanes then 1 else 0) := by
  match code, hcode with
  | 0, _ => exact Nat.zero_le _
  | 1, hcode =>
    cases hcode
    exact (if_pos hlane).ge

theorem physicalParam_eq_none {g : Geometry} (h : ps.length ≠ 3 ∨ (if g.twoLanes then 1 else 0) < (ps.getD 0 0#8).toNat ∨
    g.pagesPerLane ≤ beNat (ps.drop 1)) : physicalParam g ps = none := by
  unfold physicalParam
  split
  · next hlength =>
    split
    · next l hl =>
      refine if_neg fun ⟨hlane, hindex⟩ => ?_
      have hcode := laneOfCode_le hl hlane
      rw [beNat_take_one (List.ne_nil_of_length_pos (by omega))] at hcode
      omega
    · rfl
  · rfl

theorem Protection.code_le_of_ne_sealed {code : Nat} {p : Protection} (h : Protection.ofCode code = some p)
    (hp : p ≠ .sealed) : code ≤ 2 := by
  match code, h with
  | 0, _ | 1, _ | 2, _ => omega
  | 3, h => exact absurd (Option.some.inj h).symm hp

theorem CommitMode.code_le {code : Nat} {m : CommitMode} (h : CommitMode.ofCode code = some m) : code ≤ 1 := by
  match code, h with
  | 0, _ | 1, _ => omega

/-- The fields of a window that was read. -/
theorem readWindow_eq_some {bs : List Byte} {w : Window} (h : readWindow bs = some w) :
    w.first = beNat (bs.take 2) ∧ w.last = beNat ((bs.drop 2).take 2) ∧
      Protection.ofCode (beNat ((bs.drop 4).take 1)) = some w.protection ∧
      CommitMode.ofCode (beNat ((bs.drop 5).take 1)) = some w.commitMode := by
  unfold readWindow at h
  split at h
  · next hp hm =>
    cases h
    exact ⟨rfl, rfl, hp, hm⟩
  · cases h

theorem windowParams_eq_none {capacity : Nat} (h : ps.length ≠ 7 ∨ 3 < (ps.getD 0 0#8).toNat ∨ 2 < (ps.getD 5 0#8).toNat ∨
    1 < (ps.getD 6 0#8).toNat ∨ (beNat ((ps.drop 1).take 2) ≤ beNat ((ps.drop 3).take 2) ∧
      capacity ≤ beNat ((ps.drop 3).take 2))) : windowParams capacity ps = none := by
  unfold windowParams
  split
  · next hlength =>
    split
    · rfl
    · next w hw =>
      refine if_neg fun ⟨hnumber, hprotection, hrange⟩ => ?_
      obtain ⟨hfirst, hlast, hp, hm⟩ := readWindow_eq_some hw
      have hp := Protection.code_le_of_ne_sealed hp hprotection
      have hm := CommitMode.code_le hm
      rw [beNat_take_one (List.ne_nil_of_length_pos (by omega))] at hnumber
      rw [beNat_take_one (List.ne_nil_of_length_pos (by simp [hlength]))] at hp hm
      simp only [List.drop_drop, Nat.reduceAdd, List.getD_eq_getElem?_getD, List.getElem?_drop, Nat.add_zero,
        Window.isEmpty, decide_eq_true_eq, hfirst, hlast] at hp hm hrange hnumber h
      omega
  · rfl

/-! ### SET_PARAM (11 R166) -/

/-- Every row of SET_PARAM is handled alike: its frame holds the parameter's number and its value. -/
theorem exec_paramRow {row : (List Byte → Instr) × (Nat → Bool)} (hrow : row ∈ paramRows) (v : List Byte) (s : State) :
    ∃ after, exec (row.1 v) s =
      s.exchange (v.length + 1) (frameRefusal (v.length + 1) (paramValue row.2 v).isSome false s.mounting false) after := by
  suffices h : ∃ ok after, ok = row.2 ∧ exec (row.1 v) s =
      s.exchange (v.length + 1) (frameRefusal (v.length + 1) (paramValue ok v).isSome false s.mounting false) after by
    obtain ⟨_, after, rfl, h⟩ := h
    exact ⟨after, h⟩
  simp only [paramRows, List.mem_cons, List.not_mem_nil, or_false] at hrow
  rcases hrow with rfl | rfl | rfl | rfl | rfl | rfl | rfl | rfl
  · exact ⟨holdTimeOk, _, rfl, rfl⟩
  · exact ⟨patrolIntervalOk, _, rfl, rfl⟩
  · exact ⟨migThresholdOk, _, funext fun n => by simp [migThresholdOk], rfl⟩
  · exact ⟨wearLimitOk, _, funext fun n => by simp [wearLimitOk], rfl⟩
  · exact ⟨softLimitOk, _, funext fun n => by simp [softLimitOk], rfl⟩
  · exact ⟨reserveFloorOk, _, funext fun n => by simp [reserveFloorOk], rfl⟩
  · exact ⟨progLimitOk, _, funext fun n => by simp [progLimitOk], rfl⟩
  · exact ⟨attnMaskOk, _, rfl, rfl⟩

theorem exec_paramRow_of_length (h : s.Listening) {row : (List Byte → Instr) × (Nat → Bool)} (hrow : row ∈ paramRows)
    (hshort : ps.length < 16) (hlength : ps.length ≠ 4) : exec (row.1 ps) s = .next (s.replied 0x12 [] false) := by
  obtain ⟨after, hexec⟩ := exec_paramRow hrow ps s
  have hnone : paramValue row.2 ps = none := if_neg fun hok => hlength hok.1
  rw [hexec, hnone]
  exact State.exchange_invalid h (by omega)

theorem exec_paramRow_of_range (h : s.Listening) {row : (List Byte → Instr) × (Nat → Bool)} (hrow : row ∈ paramRows)
    (hn : n < 2 ^ 32) (hrange : row.2 n = false) : exec (row.1 (beBytes 4 n)) s = .next (s.replied 0x12 [] false) := by
  obtain ⟨after, hexec⟩ := exec_paramRow hrow (beBytes 4 n) s
  rw [hexec, paramValue_beBytes hn, hrange]
  exact State.exchange_invalid h (by simp [length_beBytes])

theorem exec_paramRow_of_mounting (h : s.Listening) {row : (List Byte → Instr) × (Nat → Bool)} (hrow : row ∈ paramRows)
    (hn : n < 2 ^ 32) (hrange : row.2 n = true) (hmode : s.mode = .mounting) :
    exec (row.1 (beBytes 4 n)) s = .next (s.replied 0x14 [] false) := by
  obtain ⟨after, hexec⟩ := exec_paramRow hrow (beBytes 4 n) s
  have hlength : (beBytes 4 n).length + 1 ≤ 16 := by simp [length_beBytes]
  rw [hexec, paramValue_beBytes hn, hrange, State.mounting_eq_true.2 hmode]
  exact State.exchange_of_some h (hlength.trans (by omega)) (frameRefusal_wrongMode hlength)

/-! ### Long commands while one is pending, and by mode (11 R161 checks 4 to 6) -/

theorem State.longBusy_eq_true : s.longBusy = true ↔ s.longCmd.isSome = true := Iff.rfl

/-- A frame whose parameters are valid is answered BUSY while a long command is pending. -/
theorem State.exchange_busy (h : s.Listening) (hbusy : s.longCmd.isSome = true) {params : Nat} (hparams : params ≤ 16)
    {wrongMode conflict : Bool} : s.exchange params (frameRefusal params true s.longBusy wrongMode conflict) after =
      .next (s.replied 0x13 [] false) := by
  rw [State.longBusy_eq_true.2 hbusy]
  exact State.exchange_of_some h (hparams.trans (by omega)) (frameRefusal_busy hparams)

/-- With the slot of long commands free, the wrong mode is answered. -/
theorem State.exchange_wrongMode (h : s.Listening) (hfree : s.longCmd = none) {params : Nat} (hparams : params ≤ 16)
    {wrongMode conflict : Bool} (hmode : wrongMode = true) :
    s.exchange params (frameRefusal params true s.longBusy wrongMode conflict) after = .next (s.replied 0x14 [] false) := by
  rw [State.longBusy_of_none hfree, hmode]
  exact State.exchange_of_some h (hparams.trans (by omega)) (frameRefusal_wrongMode hparams)

/-- With the slot of long commands free, and the part quiesced, a conflict with a SEALED window is answered. -/
theorem State.exchange_conflict (h : s.Listening) (hfree : s.longCmd = none) {params : Nat} (hparams : params ≤ 16)
    (hquiet : s.mode = .drained ∧ s.causes.maintenance = true) {conflict : Bool} (hconflict : conflict = true) :
    s.exchange params (frameRefusal params true s.longBusy s.notQuiesced conflict) after =
      .next (s.replied 0x15 [] false) := by
  rw [State.longBusy_of_none hfree, State.notQuiesced_eq_false.2 hquiet, hconflict]
  exact State.exchange_of_some h (hparams.trans (by omega)) (frameRefusal_conflict hparams)

theorem State.notQuiesced_of_mounting (h : s.mode = .mounting) : s.notQuiesced = true :=
  State.notQuiesced_eq_true.2 (.inl (by rw [h]; decide))

theorem exec_long_of_busy (h : s.Listening) (hlow : 16 ≤ n) (hhigh : n ≤ s.geometry.maxCapacity)
    (hbusy : s.longCmd.isSome = true) :
    ∀ c ∈ [Instr.saveConfig [], .flush [], .quiesce [], .format [], .remount [], .setCapacity (beBytes 2 n)],
      exec c s = .next (s.replied 0x13 [] false) := by
  have hempty : ∀ {wrongMode conflict after},
      s.exchange 0 (frameRefusal 0 true s.longBusy wrongMode conflict) after = .next (s.replied 0x13 [] false) :=
    State.exchange_busy h hbusy (Nat.zero_le _)
  simp only [List.forall_mem_cons, List.not_mem_nil, false_implies, implies_true, and_true]
  refine ⟨hempty, hempty, hempty, hempty, hempty, ?_⟩
  rw [exec_setCapacity s hlow hhigh]
  exact State.exchange_busy h hbusy (by omega)

theorem exec_long_of_notQuiesced (h : s.Listening) (hlow : 16 ≤ n) (hhigh : n ≤ s.geometry.maxCapacity)
    (hfree : s.longCmd = none) (hmode : s.notQuiesced = true) :
    ∀ c ∈ [Instr.format [], .remount [], .setCapacity (beBytes 2 n)], exec c s = .next (s.replied 0x14 [] false) := by
  simp only [List.forall_mem_cons, List.not_mem_nil, false_implies, implies_true, and_true]
  refine ⟨State.exchange_wrongMode h hfree (Nat.zero_le _) hmode, State.exchange_wrongMode h hfree (Nat.zero_le _) hmode, ?_⟩
  rw [exec_setCapacity s hlow hhigh]
  exact State.exchange_wrongMode h hfree (by omega) hmode

theorem exec_long_of_mounting (h : s.Listening) (hlow : 16 ≤ n) (hhigh : n ≤ s.geometry.maxCapacity)
    (hfree : s.longCmd = none) (hmode : s.mode = .mounting) :
    ∀ c ∈ [Instr.saveConfig [], .flush [], .quiesce [], .format [], .remount [], .setCapacity (beBytes 2 n)],
      exec c s = .next (s.replied 0x14 [] false) := by
  have hserving : ∀ {after},
      s.exchange 0 (frameRefusal 0 true s.longBusy s.mounting false) after = .next (s.replied 0x14 [] false) :=
    State.exchange_wrongMode h hfree (Nat.zero_le _) (State.mounting_eq_true.2 hmode)
  have haway := exec_long_of_notQuiesced h hlow hhigh hfree (State.notQuiesced_of_mounting hmode)
  rw [List.forall_mem_cons, List.forall_mem_cons, List.forall_mem_cons]
  exact ⟨hserving, hserving, hserving, haway⟩

theorem State.shrinkHitsSeal_of_covered {w : Window} (hw : w ∈ s.cfg.windows) (hsealed : w.protection = .sealed)
    {page : Nat} (hfirst : w.first ≤ page) (hlast : page ≤ w.last) (hbeyond : n ≤ page) (hpage : page < s.cfg.capacity) :
    s.shrinkHitsSeal n = true := by
  rw [State.shrinkHitsSeal, decide_eq_true (by omega), Bool.true_and, List.any_eq_true]
  refine ⟨w, hw, ?_⟩
  simp only [hsealed, beq_self_eq_true, Bool.true_and, Bool.and_eq_true, decide_eq_true_eq]
  omega

/-! ### Frames that name no command (11 R161 check 2) -/

theorem unknownStatus_of_named {code : Byte} (h : frameCommand code ps = .unknownCommand code ps) (hps : ps.length ≤ 16) :
    unknownStatus code ps = some (if code = 0x09#8 then 0x12 else 0x11) := by
  rw [unknownStatus, h]
  change (if 16 < ps.length then _ else _) = _
  rw [if_neg (Nat.not_lt.2 hps)]
  exact (apply_ite some _ _ _).symm

theorem exec_unknownCommand {code : Byte} (h : frameCommand code ps = .unknownCommand code ps) (hps : ps.length ≤ 16)
    (s : State) : exec (.unknownCommand code ps) s =
      s.exchange ps.length (some (if code = 0x09#8 then 0x12 else 0x11)) s := by
  change execUnknownCommand code ps s = _
  rw [execUnknownCommand, unknownStatus_of_named h hps]

/-! ### Frames that are not taken (11 R160) -/

/-- A SET_PARAM frame is one of a row of its table, or one that names no parameter. -/
theorem setParamCommand_cases (code : Byte) (ps : List Byte) : setParamCommand code ps = .unknownCommand code ps ∨
    ∃ row ∈ paramRows, ∃ v, v.length + 1 = ps.length ∧ setParamCommand code ps = row.1 v := by
  unfold setParamCommand
  split
  · exact .inl rfl
  · split
    all_goals simp [paramRows]

/-- The frame of a command, known or not, is one exchange of its parameters. -/
theorem exec_eq_exchange {code : Byte} {i : Instr} (hname : frameCommand code ps = i) (hps : ps.length ≤ 16) (s : State) :
    ∃ refused after, exec i s = s.exchange ps.length refused after := by
  have hunknown : i = .unknownCommand code ps → ∃ refused after, exec i s = s.exchange ps.length refused after := by
    rintro rfl
    exact ⟨_, _, exec_unknownCommand hname hps s⟩
  have hcode := hname
  unfold frameCommand at hcode
  split at hcode
  case h_9 =>
    rcases setParamCommand_cases code ps with hnone | ⟨row, hrow, v, hlength, hv⟩
    · exact hunknown (hcode ▸ hnone)
    · obtain ⟨after, hexec⟩ := exec_paramRow hrow v s
      rw [← hcode, hv, hexec, hlength]
      exact ⟨_, _, rfl⟩
  case h_10 =>
    subst hcode
    change ∃ refused after, execSetWindow ps s = _
    unfold execSetWindow
    split <;> exact ⟨_, _, rfl⟩
  case h_13 =>
    subst hcode
    change ∃ refused after, execSealWindow ps s = _
    unfold execSealWindow
    split <;> exact ⟨_, _, rfl⟩
  case h_16 =>
    subst hcode
    change ∃ refused after, execSetCapacity ps s = _
    unfold execSetCapacity
    split <;> exact ⟨_, _, rfl⟩
  case h_19 => exact hunknown hcode.symm
  all_goals
    subst hcode
    exact ⟨_, _, rfl⟩

/-- A whole frame that passes check 1 of R161 has at most sixteen parameters. -/
theorem length_params_le {frame : List Byte} (hwhole : frameWhole frame = true) (hgood : frameBad frame = false) :
    (frame.drop 2).dropLast.length ≤ 16 := by
  obtain ⟨code, len, rest, rfl, hrest⟩ := frameWhole_iff.1 hwhole
  obtain ⟨hlen, -⟩ := Bool.or_eq_false_iff.1 hgood
  have hlen : len.toNat ≤ 16 := Nat.not_lt.1 (of_decide_eq_false hlen)
  simpa [hrest] using hlen

/-- A port that takes no frame leaves the part as it was, whatever the frame spells. -/
theorem exec_of_not_taken (h : s.takesFrame = false) {frame : List Byte} {i : Instr} (hframe : decodeFrame frame = some i) :
    exec i s = .next s := by
  have hwhole := frameWhole_of_decode hframe
  rw [decodeFrame, if_pos hwhole] at hframe
  split at hframe
  · cases hframe
    change execBadFrame frame s = _
    rw [execBadFrame, if_pos hwhole, h]
    rfl
  · next hgood =>
    have hps := length_params_le hwhole (Bool.eq_false_iff.2 hgood)
    obtain ⟨refused, after, hexec⟩ := exec_eq_exchange (Option.some.inj hframe) hps s
    rw [hexec]
    exact State.exchange_of_not_taken h (hps.trans (by omega))

theorem State.takesFrame_eq_false (h : s.alive = false ∨ s.serial ≠ .receiving) : s.takesFrame = false := by
  rcases h with halive | hserial
  · simp [State.takesFrame, halive]
  · simp [State.takesFrame, hserial]

/-! ### The select period and SDO (11 R160) -/

theorem exec_selectStart (hpowered : s.powered = true) (hserial : s.serial = .idle) :
    exec .selectStart s = .next { s with serial := .receiving } := by
  change execSelectStart s = _
  rw [execSelectStart, hpowered, hserial]
  rfl

/-- The answer frame, behind the bytes before it is ready. -/
theorem State.sdo_of_answering {frame : List Byte} {popping : Bool} (hserial : s.serial = .answering frame popping)
    (halive : s.alive = true) (ready m : Nat) :
    s.sdo ready m = if ready ≤ m then frame.getD (m - ready) 0#8 else 0#8 := by
  simp [State.sdo, hserial, halive]

theorem State.sdo_of_no_answer (h : s.alive = false ∨ s.serial = .idle ∨ s.serial = .receiving ∨ s.serial = .spent)
    (ready m : Nat) : s.sdo ready m = 0x00#8 := by
  rcases h with h | h | h | h
  · unfold State.sdo
    split <;> simp [h]
  all_goals simp [State.sdo, h]

/-- Settles O60: each frame by the first check that fails, then the port outside a listening select period. -/
theorem framesRefusedInOrder : Obligations.FramesRefusedInOrder := by
  refine ⟨fun s h => ⟨fun frame hwhole hbad => ?_, fun code ps hps hname => ?_, fun ps hps => ?_,
    fun n hn row hrow => ⟨exec_paramRow_of_range h hrow hn, exec_paramRow_of_mounting h hrow hn⟩,
    fun n hlow hhigh => ⟨exec_long_of_busy h hlow hhigh, exec_long_of_mounting h hlow hhigh,
      fun hfree hmode => exec_long_of_notQuiesced h hlow hhigh hfree (State.notQuiesced_eq_true.2 hmode),
      fun hfree hdrained hmaint w hw hsealed page hfirst hlast hbeyond hpage => ?_⟩,
    fun n hn w hw hrange => ?_, fun hfree hdrained hmaint hsealed => ?_⟩,
    fun s haway frame c => exec_of_not_taken (State.takesFrame_eq_false haway),
    fun s => ⟨rfl, exec_selectStart⟩, fun s ready n => ⟨fun frame popping hserial halive => ?_,
      fun h => State.sdo_of_no_answer h ready n⟩⟩
  · change execBadFrame frame s = _
    rw [execBadFrame, if_pos hwhole, State.takesFrame_of_listening h, hbad]
    rfl
  · rw [exec_unknownCommand hname hps]
    exact State.exchange_of_some h (hps.trans (by omega)) rfl
  · refine ⟨exec_of_unwanted_params h hps, fun hshort hlength row hrow => exec_paramRow_of_length h hrow hshort hlength,
      fun hbad => ?_, fun hbad => ?_, fun hbad => ?_, fun hbad => ?_, fun hbad => ?_⟩
    · change execSetWindow ps s = _
      rw [execSetWindow, windowParams_eq_none hbad]
      exact State.exchange_invalid h hps
    · change execSealWindow ps s = _
      rw [execSealWindow, sealParam_eq_none hbad]
      exact State.exchange_invalid h hps
    · change execSetCapacity ps s = _
      rw [execSetCapacity, capacityParam_eq_none hbad]
      exact State.exchange_invalid h hps
    · change execInspectLogical ps s = _
      rw [execInspectLogical, logicalParam_eq_none hbad]
      exact State.exchange_invalid h hps
    · change execInspectPhysical ps s = _
      rw [execInspectPhysical, physicalParam_eq_none hbad]
      exact State.exchange_invalid h hps
  · rw [exec_setCapacity s hlow hhigh]
    exact State.exchange_conflict h hfree (by omega) ⟨hdrained, hmaint⟩
      (State.shrinkHitsSeal_of_covered hw hsealed hfirst hlast hbeyond hpage)
  · rw [exec_sealWindow s hn hw hrange]
    exact ⟨fun hbusy => State.exchange_busy h hbusy (by omega),
      fun hfree hmode => State.exchange_wrongMode h hfree (by omega) (State.mounting_eq_true.2 hmode)⟩
  · exact State.exchange_conflict h hfree (Nat.zero_le _) ⟨hdrained, hmaint⟩ hsealed
  · have hsdo := State.sdo_of_answering hserial halive ready
    refine ⟨fun hn => (hsdo n).trans (if_neg (by omega)), fun hn => ?_, ?_⟩
    · rw [hsdo, if_pos (by omega), Nat.add_sub_cancel_left, List.getD_eq_getElem _ _ hn, List.getElem?_eq_getElem hn]
    · rw [hsdo, if_pos (by omega)]
      exact List.getD_eq_default _ _ (by omega)

end Sys2Proof.Machine
end

section
/-! PROOFS. The grants of a record program and of a retirement mark (11 R164, 06 R109): with ready seen the program starts at
the counter's sequence, otherwise it waits, and a record program finds the counter spent. -/

namespace Sys2Proof.Machine

variable {s : State} {l : LaneId} {i : Nat} {ready : Bool}

/-! ### An operation that is under way from its grant on (06 R97) -/

/-- The operation holds the lane and waits for ready. -/
def State.holding (s : State) (l : LaneId) (op : Op) : State :=
  s.modLane l (fun x => { x with op := some op, awaitReady := true })

theorem keeps_granted {c : Claim} (hc : c.isForeground = false) (s : State) (l : LaneId) (ready : Bool) :
    Keeps s (s.granted l c ready none) :=
  keeps_modLane s l _ fun x hx => by rwa [hc, Bool.false_and]

theorem ProgramStarted.of_granted {t : State} {c : Claim} {o op : Op}
    (h : ProgramStarted ((s.granted l c ready none).holding l o) t l i op) : ProgramStarted s t l i op := by
  obtain ⟨hop, hpages, hprograms, hawait, hmarks, hseq, hremap, hspace⟩ := h
  cases l <;> exact ⟨hop, hpages, hprograms, hawait, hmarks, hseq, hremap, hspace⟩

/-! ### The grant of a RECORD_PROGRAM (11 R164) -/

theorem exec_recordProgramGrant (h : s.arbiter .a = some .recordProgram) (ready : Bool) :
    exec (.recordProgramGrant ready) s =
      .next ((s.granted .a .recordProgram ready none).grantRecord ready).settle := by
  change execRecordProgramGrant ready s = _
  simp only [execRecordProgramGrant, h]
  rw [State.grant_eq_granted (State.arbiter_spec h).1 (by simp)]

/-- The operation of a record program that waits for ready. -/
def State.recordAwaited (s : State) : Op := .record s.nextRecordPage .programming s.recordCfg s.formatBase 0 []

/-- A record program is under way from its grant on, and starts where ready is seen with it. -/
theorem State.grantRecord_granted (h : s.seq < 0xFFFFFFFFFFFF) (c : Claim) (seen ready : Bool) :
    (s.granted .a c seen none).grantRecord ready =
      if ready then
        ((s.granted .a c seen none).holding .a s.recordAwaited).startRecord s.nextRecordPage s.recordCfg s.formatBase
      else (s.granted .a c seen none).holding .a s.recordAwaited := by
  rw [State.grantRecord, State.not_spent (s := s.granted .a c seen none) h]
  rfl

theorem recordProgramGrant_starts (hq : s.Quiet) (h : s.arbiter .a = some .recordProgram) (hseq : s.seq < 0xFFFFFFFFFFFF)
    (hpage : s.nextRecordPage < s.laneA.pages.length) : ∃ t, exec (.recordProgramGrant true) s = .next t ∧ Keeps s t ∧
      ProgramStarted s t .a s.nextRecordPage
        (.record s.nextRecordPage .programming s.recordCfg (s.recordBase s.formatBase s.seq) s.seq
          (recordImage s.geometry s.recordCfg (s.recordBase s.formatBase s.seq) s.seq
            (s.page { lane := .a, index := s.nextRecordPage }).worn.wear)) := by
  refine ⟨_, exec_recordProgramGrant h true,
    (keeps_granted rfl s .a true).trans ((keeps_grantRecord ..).trans (keeps_settle _)), ?_⟩
  rw [State.grantRecord_granted hseq, if_pos rfl,
    State.startRecord_of_room (s := (s.granted .a .recordProgram true none).holding .a s.recordAwaited) hseq hpage]
  exact (programStarted_settle (s := (s.granted .a .recordProgram true none).holding .a s.recordAwaited)
    hq.2 ..).of_granted

theorem recordProgramGrant_waits (hq : s.Quiet) (h : s.arbiter .a = some .recordProgram) (hseq : s.seq < 0xFFFFFFFFFFFF) :
    SettlesTo (exec (.recordProgramGrant false) s) (s.granted .a .recordProgram false (some s.recordAwaited)) := by
  rw [exec_recordProgramGrant h, State.grantRecord_granted hseq]
  exact settlesTo_next hq.2

theorem recordProgramGrant_ends (hq : s.Quiet) (h : s.arbiter .a = some .recordProgram) (hseq : 0xFFFFFFFFFFFF ≤ s.seq)
    (hroom : s.notices.length < 32) {c : LongCmd} (hlong : s.longCmd = some c) (ready : Bool) :
    SettlesTo (exec (.recordProgramGrant ready) s)
      { (s.granted .a .recordProgram ready none) with
        longCmd := none, notices := s.notices ++ [s.doneBy c 2 none] } := by
  have hspent : (s.granted .a .recordProgram ready none).spent = true := s.spent_iff.mpr hseq
  rw [exec_recordProgramGrant h, State.grantRecord, if_pos hspent,
    State.finishLong_eq (s := s.granted .a .recordProgram ready none) hlong hroom, State.doneNotice_eq]
  exact settlesTo_next hq.2

/-! ### The grant of a MARK (06 R109) -/

theorem exec_markGrant (h : s.arbiter l = some .mark) (ready : Bool) :
    exec (.markGrant l ready) s = .next ((s.granted l .mark ready none).grantMark l ready).settle := by
  change execMarkGrant l ready s = _
  simp only [execMarkGrant, h]
  rw [State.grant_eq_granted (State.arbiter_spec h).1 (by simp)]

/-- The head of the mark list is under way from the grant on, and its program starts where ready is seen with it. -/
theorem State.grantMark_of_head (h : (s.lane l).markList.head? = some i) (ready : Bool) : s.grantMark l ready =
    if ready then (s.holding l (.mark i [])).startMark l i else s.holding l (.mark i []) := by
  obtain ⟨rest, hlist⟩ := List.head?_eq_some_iff.1 h
  rw [State.grantMark, hlist]
  rfl

theorem State.markList_pages_granted (s : State) (l : LaneId) (c : Claim) (ready : Bool) :
    ((s.granted l c ready none).lane l).markList = (s.lane l).markList ∧
      ((s.granted l c ready none).lane l).pages = (s.lane l).pages := by
  rw [State.granted, State.lane_modLane]
  exact ⟨rfl, rfl⟩

theorem markGrant_starts (hq : s.Quiet) (h : s.arbiter l = some .mark) (hseq : s.seq < 0xFFFFFFFFFFFF)
    (hi : (s.lane l).markList.head? = some i) (hpage : i < (s.lane l).pages.length) :
    ∃ t, exec (.markGrant l true) s = .next t ∧ Keeps s t ∧
      ProgramStarted s t l i (.mark i (markImage s.seq (s.page { lane := l, index := i }).worn)) := by
  refine ⟨_, exec_markGrant h true,
    (keeps_granted rfl s l true).trans ((keeps_grantMark ..).trans (keeps_settle _)), ?_⟩
  rw [State.grantMark_of_head (by rwa [(s.markList_pages_granted l .mark true).1]), if_pos rfl,
    State.startMark_of_room (s := (s.granted l .mark true none).holding l (.mark i [])) hseq
      (by rw [State.holding, State.lane_modLane]; rwa [(s.markList_pages_granted l .mark true).2])]
  have hsame : ((s.granted l .mark true none).holding l (.mark i [])).page { lane := l, index := i } =
      s.page { lane := l, index := i } := by cases l <;> rfl
  rw [hsame]
  exact (programStarted_settle (s := (s.granted l .mark true none).holding l (.mark i [])) hq.2 ..).of_granted

theorem markGrant_waits (hq : s.Quiet) (h : s.arbiter l = some .mark) (hi : (s.lane l).markList.head? = some i) :
    SettlesTo (exec (.markGrant l false) s) (s.modLane l (fun x =>
      { x with claims := x.claims.erase .mark, ready := false, op := some (.mark i []), awaitReady := true })) := by
  rw [exec_markGrant h, State.grantMark_of_head (by rwa [(s.markList_pages_granted l .mark false).1]),
    if_neg Bool.false_ne_true, State.granted, State.holding, State.modLane_modLane]
  exact settlesTo_next hq.2

/-- Settles O40: a grant starts its program, or waits, or ends the command of a record that finds the counter spent. -/
theorem recordAndMarkGrantsProgram : Obligations.RecordAndMarkGrantsProgram := by
  refine ⟨fun s hq h => ⟨fun hseq i hnext hi => ?_, fun hseq => ?_, fun hseq hroom c hlong ready => ?_⟩,
    fun s l hq h hseq i hi => ⟨fun hpage => ?_, markGrant_waits hq h hi⟩⟩
  · subst hnext
    obtain ⟨t, hexec, hkeeps, hstart⟩ := recordProgramGrant_starts hq h hseq hi
    exact ⟨t, hexec, hstart.op, hstart.pages, hstart.seq, hstart.programs, hstart.awaitReady, hkeeps.cfg,
      hkeeps.formatBase, hkeeps.newestRecord, hstart.remap⟩
  · obtain ⟨t, hexec, hsettled⟩ := recordProgramGrant_waits hq h hseq
    obtain ⟨_, _, _, rfl, ⟨_, rfl, -⟩, -⟩ := hsettled
    exact ⟨_, hexec, rfl, rfl, rfl, rfl, rfl⟩
  · have hends := recordProgramGrant_ends hq h hseq hroom hlong ready
    cases c <;> exact hends
  · obtain ⟨t, hexec, hkeeps, hstart⟩ := markGrant_starts hq h hseq hi hpage
    exact ⟨t, hexec, hstart.op, hstart.pages, hstart.seq, hstart.programs, hstart.awaitReady, hstart.markList, hstart.remap,
      hkeeps.cfg⟩

end Sys2Proof.Machine
end

section
/-! PROOFS. What the withdrawal and the release of pages can change: page records, free lists and mark lists of the lanes,
and the notices with their flags (01 R10, R12, R15). -/

namespace Sys2Proof.Machine

variable {s t u : State}

/-- The lane has other page records, as many as before, and another free list, and its mark list lost nothing. -/
def LaneShelves (x y : Lane) : Prop :=
  ∃ pages freeList markList, y = { x with pages := pages, freeList := freeList, markList := markList } ∧
    pages.length = x.pages.length ∧ x.markList ⊆ markList

theorem LaneShelves.refl (x : Lane) : LaneShelves x x := ⟨_, _, _, rfl, rfl, List.Subset.refl _⟩

theorem LaneShelves.trans {x y z : Lane} (h : LaneShelves x y) (g : LaneShelves y z) : LaneShelves x z := by
  obtain ⟨_, _, _, rfl, hlength, hmarks⟩ := h
  obtain ⟨_, _, _, rfl, glength, gmarks⟩ := g
  exact ⟨_, _, _, rfl, glength.trans hlength, List.Subset.trans hmarks gmarks⟩

theorem laneShelves_pages (x : Lane) (i : Nat) (r : PageRec) : LaneShelves x { x with pages := x.pages.set i r } :=
  ⟨_, _, _, rfl, List.length_set, List.Subset.refl _⟩

theorem laneShelves_freeList (x : Lane) (freeList : List Nat) : LaneShelves x { x with freeList := freeList } :=
  ⟨_, _, _, rfl, rfl, List.Subset.refl _⟩

theorem laneShelves_appendMark (x : Lane) (i : Nat) : LaneShelves x (x.appendMark i) := by
  refine ⟨_, _, _, rfl, rfl, ?_⟩
  split
  · exact List.Subset.refl _
  · exact List.subset_append_left ..

/-- Only the shelves of the lanes and the notices with their flags changed. -/
def ShelvesOnly (s t : State) : Prop :=
  ∃ a b notices dropped faults,
    t = { s with laneA := a, laneB := b, notices := notices, dropped := dropped, faults := faults } ∧
      LaneShelves s.laneA a ∧ LaneShelves s.laneB b

theorem ShelvesOnly.refl (s : State) : ShelvesOnly s s := ⟨_, _, _, _, _, rfl, .refl _, .refl _⟩

theorem ShelvesOnly.trans (h : ShelvesOnly s t) (g : ShelvesOnly t u) : ShelvesOnly s u := by
  obtain ⟨_, _, _, _, _, rfl, ha, hb⟩ := h
  obtain ⟨_, _, _, _, _, rfl, ga, gb⟩ := g
  exact ⟨_, _, _, _, _, rfl, ha.trans ga, hb.trans gb⟩

theorem ShelvesOnly.foldl {α : Type} {f : State → α → State} (hf : ∀ t a, ShelvesOnly t (f t a)) (xs : List α) (s : State) :
    ShelvesOnly s (xs.foldl f s) := by
  induction xs generalizing s with
  | nil => exact .refl s
  | cons a xs ih => exact (hf s a).trans (ih _)

theorem shelvesOnly_modLane (s : State) (l : LaneId) {f : Lane → Lane} (hf : ∀ x, LaneShelves x (f x)) :
    ShelvesOnly s (s.modLane l f) := by
  cases l
  · exact ⟨_, _, _, _, _, rfl, hf _, .refl _⟩
  · exact ⟨_, _, _, _, _, rfl, .refl _, hf _⟩

theorem shelvesOnly_give (s : State) (n : Notice) : ShelvesOnly s (s.give n) := ⟨_, _, _, _, _, rfl, .refl _, .refl _⟩

theorem shelvesOnly_retire (s : State) (p : PPage) : ShelvesOnly s (s.retire p) :=
  (shelvesOnly_modLane s p.lane fun x => laneShelves_pages x p.index _).trans
    (shelvesOnly_modLane _ p.lane fun x => laneShelves_appendMark x p.index)

theorem shelvesOnly_freed (s : State) (p : PPage) : ShelvesOnly s (s.freed p) :=
  (shelvesOnly_modLane s p.lane fun x => laneShelves_pages x p.index _).trans
    (shelvesOnly_modLane _ p.lane fun x => laneShelves_freeList x _)

theorem shelvesOnly_release (s : State) (p : PPage) (n : Nat) : ShelvesOnly s (s.release p n) := by
  obtain ⟨notice, e⟩ | e := s.release_cases p n
  · rw [e]
    exact (shelvesOnly_retire s p).trans (shelvesOnly_give ..)
  · rw [e]
    exact shelvesOnly_freed s p

/-! ### What is as it was -/

theorem ShelvesOnly.lane (h : ShelvesOnly s t) (l : LaneId) : LaneShelves (s.lane l) (t.lane l) := by
  obtain ⟨_, _, _, _, _, rfl, ha, hb⟩ := h
  cases l
  · exact ha
  · exact hb

theorem ShelvesOnly.length (h : ShelvesOnly s t) (l : LaneId) : (t.lane l).pages.length = (s.lane l).pages.length := by
  obtain ⟨_, _, _, hlane, hlength, -⟩ := h.lane l
  rw [hlane]
  exact hlength

theorem ShelvesOnly.markList (h : ShelvesOnly s t) (l : LaneId) : (s.lane l).markList ⊆ (t.lane l).markList := by
  obtain ⟨_, _, _, hlane, -, hmarks⟩ := h.lane l
  rw [hlane]
  exact hmarks

theorem ShelvesOnly.cfg (h : ShelvesOnly s t) : t.cfg = s.cfg := by
  obtain ⟨_, _, _, _, _, rfl, -⟩ := h
  rfl

theorem ShelvesOnly.remap (h : ShelvesOnly s t) : t.remap = s.remap := by
  obtain ⟨_, _, _, _, _, rfl, -⟩ := h
  rfl

theorem ShelvesOnly.link (h : ShelvesOnly s t) : t.link = s.link := by
  obtain ⟨_, _, _, _, _, rfl, -⟩ := h
  rfl

end Sys2Proof.Machine
end

section
/-! PROOFS. The read-back of a system record: the command that programmed it ends, and SET_CAPACITY and FORMAT release the
copies of the entries they remove (11 R164, R165, 01 R12, R21, R22). -/

namespace Sys2Proof.Machine

variable {s t u v : State} {n i : Nat} {p : PPage} {ns : List Nat} {c : LongCmd}

/-! ### The copies of removed entries (01 R12) -/

theorem State.releaseEntry_of_mapped {q : Nat} (h : s.entry n = .mapped p q) : s.releaseEntry n = s.release p n := by
  rw [State.releaseEntry, h]

/-- An entry that is removed releases its copy, or has none. -/
theorem State.releaseEntry_cases (s : State) (n : Nat) :
    (∃ p q, s.entry n = .mapped p q ∧ s.releaseEntry n = s.release p n) ∨ s.releaseEntry n = s := by
  unfold State.releaseEntry
  split
  · next h => exact .inl ⟨_, _, h, rfl⟩
  · exact .inr rfl

theorem shelvesOnly_releaseEntry (s : State) (n : Nat) : ShelvesOnly s (s.releaseEntry n) := by
  obtain ⟨p, q, -, e⟩ | e := s.releaseEntry_cases n
  · rw [e]
    exact shelvesOnly_release ..
  · rw [e]
    exact .refl s

theorem ShelvesOnly.mappedAt (h : ShelvesOnly s t) (n : Nat) (p : PPage) : t.mappedAt n p = s.mappedAt n p := by
  rw [State.mappedAt, State.entry_congr h.remap]
  rfl

theorem State.page_releaseEntry_of_not (h : s.mappedAt n p = false) : (s.releaseEntry n).page p = s.page p := by
  obtain ⟨r, q, hentry, e⟩ | e := s.releaseEntry_cases n
  · rw [e]
    refine s.page_release_of_ne n fun hp => ?_
    simp [State.mappedAt, hentry, hp] at h
  · rw [e]

/-- The free lists lost nothing. -/
def FreesKept (s t : State) : Prop := ∀ l, (s.lane l).freeList ⊆ (t.lane l).freeList

theorem freesKept_release (s : State) (p : PPage) (n : Nat) : FreesKept s (s.release p n) := by
  intro l
  by_cases hl : l = p.lane
  · subst hl
    obtain ⟨notice, e⟩ | e := s.release_cases p n
    · rw [e, State.lane_give, State.freeList_retire]
      exact List.Subset.refl _
    · rw [e, State.lane_freed]
      exact fun i hi => (insertFree_perm ..).mem_iff.2 (.tail _ hi)
  · obtain rfl : l = p.lane.other := by
      revert hl
      cases l <;> cases p.lane <;> simp [LaneId.other]
    rw [State.lane_release_other]
    exact List.Subset.refl _

theorem freesKept_foldl (ns : List Nat) (s : State) : FreesKept s (ns.foldl State.releaseEntry s) := by
  induction ns generalizing s with
  | nil => exact fun l => List.Subset.refl _
  | cons n ns ih =>
    obtain ⟨p, q, -, e⟩ | e := s.releaseEntry_cases n
    · rw [List.foldl_cons, e]
      exact fun l => List.Subset.trans (freesKept_release s p n l) (ih _ l)
    · rw [List.foldl_cons, e]
      exact ih s

theorem shelvesOnly_releaseEntries (ns : List Nat) (s : State) : ShelvesOnly s (ns.foldl State.releaseEntry s) :=
  .foldl shelvesOnly_releaseEntry ns s

/-- A page that is the copy of no removed entry stays as it is. -/
theorem State.page_releaseEntries_of_not (h : ∀ n ∈ ns, s.mappedAt n p = false) :
    (ns.foldl State.releaseEntry s).page p = s.page p := by
  induction ns generalizing s with
  | nil => rfl
  | cons n ns ih =>
    obtain ⟨hn, hns⟩ := List.forall_mem_cons.1 h
    rw [List.foldl_cons, ih fun m hm => ((shelvesOnly_releaseEntry s n).mappedAt m p).trans (hns m hm),
      State.page_releaseEntry_of_not hn]

/-- A page that stood where a release put it still stands so when it is as it was and no list lost it. -/
theorem State.Shelved.of_kept (h : s.Shelved p) (hpage : t.page p = s.page p)
    (hmarks : (s.lane p.lane).markList ⊆ (t.lane p.lane).markList) (hfrees : FreesKept s t) : t.Shelved p := by
  unfold State.Shelved
  rw [hpage]
  exact ⟨fun hretired => hmarks (h.1 hretired), fun hfree => hfrees _ (h.2 hfree)⟩

/-- The copy of one entry, removed once, is released once and then left alone. -/
theorem releaseEntries_releases (hnodup : ns.Nodup) (hn : n ∈ ns) {q : Nat} (hentry : s.entry n = .mapped p q)
    (hp : p.index < (s.lane p.lane).pages.length) (honly : ∀ j ∈ ns, j ≠ n → s.mappedAt j p = false) :
    (ns.foldl State.releaseEntry s).page p = s.released (s.page p) ∧ (ns.foldl State.releaseEntry s).Shelved p := by
  obtain ⟨before, after, rfl⟩ := List.append_of_mem hn
  rw [List.nodup_append] at hnodup
  obtain ⟨-, hafter, hdisjoint⟩ := hnodup
  rw [List.foldl_append, List.foldl_cons]
  generalize hu : before.foldl State.releaseEntry s = u
  have hbefore : ShelvesOnly s u := hu ▸ shelvesOnly_releaseEntries ..
  have hpage : u.page p = s.page p := by
    rw [← hu]
    exact State.page_releaseEntries_of_not fun j hj =>
      honly j (List.mem_append_left _ hj) (hdisjoint j hj n List.mem_cons_self)
  have hindex : p.index < (u.lane p.lane).pages.length := by rwa [hbefore.length]
  rw [State.releaseEntry_of_mapped ((State.entry_congr hbefore.remap n).trans hentry)]
  have hstays : (after.foldl State.releaseEntry (u.release p n)).page p = (u.release p n).page p :=
    State.page_releaseEntries_of_not fun j hj => by
      rw [(hbefore.trans (shelvesOnly_release u p n)).mappedAt]
      refine honly j (List.mem_append_right _ (.tail _ hj)) fun hjn => ?_
      exact (List.nodup_cons.1 hafter).1 (hjn ▸ hj)
  refine ⟨?_, ?_⟩
  · rw [hstays, State.page_release_self n hindex, hpage, hbefore.cfg]
    rfl
  · exact (State.shelved_release n hindex).of_kept hstays ((shelvesOnly_releaseEntries ..).markList _)
      (freesKept_foldl after _)

theorem released_releaseEntries (hnodup : ns.Nodup) (s : State) : (ns.foldl State.releaseEntry s).Released s ns :=
  ⟨fun _ hn _ _ hentry hp honly => releaseEntries_releases hnodup hn hentry hp honly,
    fun _ hnone => State.page_releaseEntries_of_not hnone⟩

/-- The page records and the lists of the lanes are the same. -/
structure SameShelves (s t : State) : Prop where
  pages : ∀ l, (t.lane l).pages = (s.lane l).pages
  freeList : ∀ l, (t.lane l).freeList = (s.lane l).freeList
  markList : ∀ l, (t.lane l).markList = (s.lane l).markList

theorem SameShelves.of_lane (h : ∀ l, ∃ claims passOver op awaitReady discard, t.lane l =
    { s.lane l with
      claims := claims, passOver := passOver, op := op, awaitReady := awaitReady, discard := discard }) :
    SameShelves s t := by
  refine ⟨fun l => ?_, fun l => ?_, fun l => ?_⟩
  all_goals
    obtain ⟨_, _, _, _, _, hlane⟩ := h l
    rw [hlane]

theorem SameShelves.trans (h : SameShelves s t) (g : SameShelves t u) : SameShelves s u :=
  ⟨fun l => (g.pages l).trans (h.pages l), fun l => (g.freeList l).trans (h.freeList l),
    fun l => (g.markList l).trans (h.markList l)⟩

theorem SameShelves.of_lanes (ha : t.laneA = s.laneA) (hb : t.laneB = s.laneB) : SameShelves s t :=
  .of_lane fun l => by
    cases l
    · exact ⟨_, _, _, _, _, ha⟩
    · exact ⟨_, _, _, _, _, hb⟩

theorem SameShelves.page (h : SameShelves s t) (p : PPage) : t.page p = s.page p := by
  simp only [State.page, h.pages]

/-- The release of copies is told of the state before it by its map, its configuration and its shelves. -/
theorem State.Released.congr (h : u.Released v ns) (hbefore : SameShelves s v) (hremap : v.remap = s.remap)
    (hcfg : v.cfg = s.cfg) (hafter : SameShelves u t) : t.Released s ns := by
  have hentry : ∀ n, s.entry n = v.entry n := State.entry_congr hremap.symm
  have hmapped : ∀ n p, s.mappedAt n p = v.mappedAt n p := fun n p => by
    rw [State.mappedAt, hentry]
    rfl
  have hreleased : ∀ r, s.released r = v.released r := fun r => by rw [State.released, ← hcfg]; rfl
  have hshelved : ∀ p, t.Shelved p ↔ u.Shelved p := fun p => by
    unfold State.Shelved
    rw [hafter.page, hafter.freeList, hafter.markList]
  simp only [State.Released, hentry, hmapped, hreleased, hafter.page, hshelved, ← hbefore.page, ← hbefore.pages]
  exact h

theorem sameShelves_recompute (s : State) : SameShelves s s.recompute :=
  .of_lane fun l => ⟨_, _, _, _, _, State.lane_recompute s l⟩

theorem PoolEnds.sameShelves (h : PoolEnds v t) : SameShelves v t :=
  .of_lane fun l => by
    obtain ⟨_, _, hlane⟩ := h.lane l
    exact ⟨_, _, _, _, _, hlane⟩

/-! ### The end of a record command (11 R163, R164) -/

theorem exec_recordReadBackDone {cfg : WorkCfg} {base q : Nat} {data bytes : List Byte}
    (hop : s.laneA.recordOp = some (i, .verifying, cfg, base, q, data)) (hbytes : bytes.length = 88) :
    exec (.recordReadBackDone bytes) s = .next (s.recordVerified i base data bytes).settle := by
  have hlength : bytes.length = Config.pageBytes := hbytes
  change execRecordReadBackDone bytes s = _
  simp only [execRecordReadBackDone, hlength, if_true, hop]

/-- The lane is released and the page programmed holds the newest record. -/
def State.recordTaken (s : State) (i : Nat) : State := { (s.idled .a) with newestRecord := some i, blank := false }

theorem State.recordVerified_same (s : State) (i base : Nat) (data : List Byte) :
    s.recordVerified i base data data = ((s.recordTaken i).applyRecord base).finishLong 0 (some i) := if_pos rfl

theorem State.recordVerified_other {base : Nat} {data bytes : List Byte} (h : bytes ≠ data) (i : Nat) :
    s.recordVerified i base data bytes = (s.idled .a).finishLong 2 (some i) := if_neg h

theorem sameShelves_recordTaken (s : State) (i : Nat) : SameShelves s (s.recordTaken i) :=
  .of_lane fun l => by cases l <;> exact ⟨_, _, _, _, _, rfl⟩

/-- What the end of a record command that took force leaves of the state v it takes force in. -/
structure CommandEnded (v t : State) (c : LongCmd) (i : Nat) : Prop where
  cfg : t.cfg = v.cfg
  formatBase : t.formatBase = v.formatBase
  newestRecord : t.newestRecord = v.newestRecord
  blank : t.blank = v.blank
  remap : t.remap = v.remap
  relocList : v.relocList = [] → t.relocList = []
  cursor : t.cursor = v.cursor
  space : t.space = v.space
  spaceNow : t.spaceNow = v.spaceNow
  longCmd : t.longCmd = none
  op : t.laneA.op = v.laneA.op
  slots : t.slots = v.slots
  commitQueue : t.commitQueue = v.commitQueue
  seq : t.seq = v.seq
  notices : t.notices.length < 32 → t.notices.getLast? = some (t.doneBy c 0 (some i))
  shelves : SameShelves v t

theorem commandEnded_settle (hlink : v.link = []) (hlong : v.longCmd = some c) (i : Nat) :
    CommandEnded v (v.finishLong 0 (some i)).settle c i := by
  have hfinish : v.finishLong 0 (some i) = ({ v with longCmd := none }).give (v.doneNotice c 0 (some i)) := by
    rw [State.finishLong, hlong]
  rw [settle_of_quiet ((poolOnly_finishLong ..).link.trans hlink)]
  have hsettled := settled_refresh (v.finishLong 0 (some i))
  have hends := poolEnds_of_settled (poolOnly_finishLong v 0 (some i)) hsettled
  rw [hfinish] at hsettled hends ⊢
  generalize State.refresh _ = t at hsettled hends
  have hop := hends.op .a
  have hnow := hends.spaceNow
  have hshelves := hends.sameShelves
  obtain ⟨_, _, m, rfl, -⟩ := hsettled
  exact {
    cfg := rfl, formatBase := rfl, newestRecord := rfl, blank := rfl, remap := rfl, cursor := rfl, space := rfl
    longCmd := rfl, slots := rfl, commitQueue := rfl, seq := rfl, spaceNow := hnow, op := hop, shelves := hshelves
    relocList := fun hnone => by
      change v.relocList.drop m = []
      rw [hnone, List.drop_nil]
    notices := fun hroom => (give_getLast (s := { v with longCmd := none }) _ hroom).trans
      (congrArg some (v.doneNotice_eq c 0 (some i))) }

/-! ### SET_CAPACITY and FORMAT (11 R165, 01 R21, R22) -/

/-- The map of SET_CAPACITY, before the space state and the cursor follow. -/
def State.resized (s : State) (n : Nat) : State :=
  { ((List.range' n (s.cfg.capacity - n)).foldl State.releaseEntry s) with
    remap := s.remap.take n ++ List.replicate (n - s.cfg.capacity) .unmapped
    cfg := { s.cfg with capacity := n } }

theorem State.resize_eq (s : State) (n : Nat) : s.resize n = (s.resized n).recompute.clampCursor := by
  have hfold := shelvesOnly_releaseEntries (List.range' n (s.cfg.capacity - n)) s
  simp only [State.resize, State.resized, hfold.remap, hfold.cfg]

/-- The map of FORMAT, before the space state follows. -/
def State.formatted (s : State) (base : Nat) : State :=
  { ((List.range s.cfg.capacity).foldl State.releaseEntry s) with
    remap := List.replicate s.cfg.capacity .unmapped, relocList := [], formatBase := base }

theorem State.formatMap_eq (s : State) (base : Nat) : s.formatMap base = (s.formatted base).recompute := rfl

theorem State.resize_frame (s : State) (n : Nat) : ∃ laneA laneB space notices dropped faults,
    s.resize n =
      { s with
        laneA := laneA, laneB := laneB, space := space, notices := notices, dropped := dropped, faults := faults
        remap := s.remap.take n ++ List.replicate (n - s.cfg.capacity) .unmapped
        cfg := { s.cfg with capacity := n }
        cursor := if n ≤ s.cursor then 0 else s.cursor } ∧ laneA.op = s.laneA.op := by
  obtain ⟨_, _, _, _, _, hfold, ⟨_, _, _, rfl, -⟩, -⟩ :=
    shelvesOnly_releaseEntries (List.range' n (s.cfg.capacity - n)) s
  obtain ⟨_, _, _, _, hjudged⟩ := (s.resized n).recompute_frame
  rw [State.resize_eq, hjudged, State.resized, hfold]
  exact ⟨_, _, _, _, _, _, rfl, rfl⟩

theorem State.formatMap_frame (s : State) (base : Nat) : ∃ laneA laneB space notices dropped faults,
    s.formatMap base =
      { s with
        laneA := laneA, laneB := laneB, space := space, notices := notices, dropped := dropped, faults := faults
        remap := List.replicate s.cfg.capacity .unmapped, relocList := [], formatBase := base } ∧
      laneA.op = s.laneA.op := by
  obtain ⟨_, _, _, _, _, hfold, ⟨_, _, _, rfl, -⟩, -⟩ := shelvesOnly_releaseEntries (List.range s.cfg.capacity) s
  obtain ⟨_, _, _, _, hjudged⟩ := (s.formatted base).recompute_frame
  rw [State.formatMap_eq, hjudged, State.formatted, hfold]
  exact ⟨_, _, _, _, _, _, rfl, rfl⟩

theorem State.space_resize (s : State) (n : Nat) : (s.resize n).space = (s.resize n).spaceNow := by
  rw [State.resize_eq]
  exact (State.recompute_space _).trans (State.spaceNow_recompute _).symm

theorem State.space_formatMap (s : State) (base : Nat) : (s.formatMap base).space = (s.formatMap base).spaceNow := by
  rw [State.formatMap_eq, State.recompute_space, State.spaceNow_recompute]

theorem released_resize (s : State) (n : Nat) : (s.resize n).Released s (List.range' n (s.cfg.capacity - n)) := by
  have hmap : SameShelves ((List.range' n (s.cfg.capacity - n)).foldl State.releaseEntry s) (s.resized n) :=
    .of_lanes rfl rfl
  have hcursor : SameShelves (s.resized n).recompute (s.resized n).recompute.clampCursor := .of_lanes rfl rfl
  rw [State.resize_eq]
  exact (released_releaseEntries List.nodup_range' s).congr (.of_lanes rfl rfl) rfl rfl
    ((hmap.trans (sameShelves_recompute _)).trans hcursor)

theorem released_formatMap (s : State) (base : Nat) : (s.formatMap base).Released s (List.range s.cfg.capacity) := by
  have hmap : SameShelves ((List.range s.cfg.capacity).foldl State.releaseEntry s) (s.formatted base) := .of_lanes rfl rfl
  rw [State.formatMap_eq]
  exact (released_releaseEntries List.nodup_range s).congr (.of_lanes rfl rfl) rfl rfl
    (hmap.trans (sameShelves_recompute _))

/-! ### The read-back (11 R164) -/

theorem recordReadBack_differs (hq : s.Quiet) (hroom : s.notices.length < 32) (hlong : s.longCmd = some c) {base : Nat}
    {data bytes : List Byte} (h : bytes ≠ data) (i : Nat) :
    SettlesTo (.next (s.recordVerified i base data bytes).settle)
      { (s.idled .a) with longCmd := none, notices := s.notices ++ [s.doneBy c 2 (some i)] } := by
  rw [State.recordVerified_other h, State.finishLong_eq (s := s.idled .a) hlong hroom, State.doneNotice_eq]
  exact settlesTo_next hq.2

theorem recordReadBack_ends (hq : s.Quiet) (hroom : s.notices.length < 32) (hlong : s.longCmd = some c)
    (hsize : c.capacity = none) (hformat : c ≠ .format) (i base : Nat) (data : List Byte) :
    SettlesTo (.next (s.recordVerified i base data data).settle)
      { (s.idled .a) with
        longCmd := none, newestRecord := some i, blank := false, notices := s.notices ++ [s.doneBy c 0 (some i)] } := by
  have happly : (s.recordTaken i).applyRecord base = s.recordTaken i := by
    have hcmd : (s.recordTaken i).longCmd = some c := hlong
    unfold State.applyRecord
    split
    · next h => cases h.symm.trans hcmd; cases hsize
    · next h => cases h.symm.trans hcmd; exact absurd rfl hformat
    · rfl
  rw [State.recordVerified_same, happly, State.finishLong_eq (s := s.recordTaken i) hlong hroom, State.doneNotice_eq]
  exact settlesTo_next hq.2

/-- A command that changes the map takes force, and ends. -/
theorem recordReadBack_takesForce (hq : s.Quiet) (hlong : s.longCmd = some c) {base : Nat}
    (happly : (s.recordTaken i).applyRecord base = v) (hlink : v.link = s.link) (hpending : v.longCmd = s.longCmd)
    (hspace : v.space = v.spaceNow) (hreleased : v.Released (s.recordTaken i) ns) (data : List Byte) :
    ∃ t, (s.recordVerified i base data data).settle = t ∧ CommandEnded v t c i ∧ t.space = t.spaceNow ∧
      t.Released s ns := by
  have hended := commandEnded_settle (hlink.trans hq.2) (hpending.trans hlong) i
  rw [State.recordVerified_same, happly]
  exact ⟨_, rfl, hended, hended.space.trans (hspace.trans hended.spaceNow.symm),
    hreleased.congr (sameShelves_recordTaken s i) rfl rfl hended.shelves⟩

/-- Settles O49: a read-back that differs, the commands that change no map, SET_CAPACITY and FORMAT. -/
theorem recordReadBackEnds : Obligations.RecordReadBackEnds := by
  rintro s hq hroom ⟨i, _, cfg, base, q, data⟩ hop rfl c hlong
  refine ⟨fun bytes hbytes hne => ?_, fun hlength => ?_⟩
  · rw [exec_recordReadBackDone hop hbytes]
    exact recordReadBack_differs hq hroom hlong hne i
  rw [exec_recordReadBackDone hop hlength]
  have hpending : (s.recordTaken i).longCmd = some c := hlong
  refine ⟨fun hsize hformat => recordReadBack_ends hq hroom hlong hsize hformat .., fun n hsize _ => ?_,
    fun hformat => ?_⟩
  · obtain rfl : c = .setCapacity n := by cases c <;> simp_all [LongCmd.capacity]
    have happly : (s.recordTaken i).applyRecord base = (s.recordTaken i).resize n := by
      rw [State.applyRecord, hpending]
    obtain ⟨_, _, _, _, _, _, hframe, hnoop⟩ := (s.recordTaken i).resize_frame n
    obtain ⟨t, hexec, hended, hspace, hreleased⟩ := recordReadBack_takesForce hq hlong happly (by rw [hframe]; rfl)
      (by rw [hframe]; rfl) (State.space_resize ..) (released_resize ..) data
    rw [hframe] at hended
    exact ⟨t, congrArg _ hexec, hended.cfg, hended.newestRecord, hended.blank, hended.remap, hended.cursor, hspace,
      hended.longCmd, hended.op.trans hnoop, hended.slots, hended.commitQueue, hended.seq, hended.notices, hreleased⟩
  · subst hformat
    have happly : (s.recordTaken i).applyRecord base = (s.recordTaken i).formatMap base := by
      rw [State.applyRecord, hpending]
    obtain ⟨_, _, _, _, _, _, hframe, hnoop⟩ := (s.recordTaken i).formatMap_frame base
    obtain ⟨t, hexec, hended, hspace, hreleased⟩ := recordReadBack_takesForce hq hlong happly (by rw [hframe]; rfl)
      (by rw [hframe]; rfl) (State.space_formatMap ..) (released_formatMap ..) data
    rw [hframe] at hended
    exact ⟨t, congrArg _ hexec, hended.cfg, hended.newestRecord, hended.blank, hended.remap, hended.relocList rfl,
      hended.formatBase, hspace, hended.longCmd, hended.op.trans hnoop, hended.slots, hended.commitQueue, hended.seq,
      hended.notices, hreleased⟩

end Sys2Proof.Machine
end

section
/-! PROOFS. SET_PARAM and SET_WINDOW: a value in range takes effect at once, and what the timer, the space state and the
FREE pages make of it (11 R166, 01 R15, R18, 08 R129, 04 R71). -/

namespace Sys2Proof.Machine

variable {s t u : State} {l : LaneId} {n i : Nat} {p q : PPage} {ps : List PPage}

/-! ### A SET_PARAM frame in range (11 R166) -/

theorem settlesTo_setParam (h : s.Listening) (hmode : s.mode ≠ .mounting) {ok : Nat → Bool} (hn : n < 2 ^ 32)
    (hok : ok n = true) {effect : State → Nat → State} (hlink : (effect s n).link = s.link) :
    SettlesTo (s.setParam ok (beBytes 4 n) effect) ((effect s n).replied 0x01 [] false) := by
  have hlength : (beBytes 4 n).length + 1 ≤ 16 := by simp [length_beBytes]
  have hnumber : beNat (beBytes 4 n) = n := beNat_beBytes_of_lt (n := 4) hn
  have hnone : s.paramRefusal ok (beBytes 4 n) = none := by
    rw [State.paramRefusal, paramValue_beBytes hn, hok, State.mounting_eq_false.2 hmode]
    exact frameRefusal_none hlength
  rw [State.setParam, hnumber]
  exact settlesTo_exchange h (hlength.trans (by omega)) hnone (hlink.trans h.1.2)

/-- A parameter that only takes its value. -/
theorem settlesTo_setCfg (h : s.Listening) (hmode : s.mode ≠ .mounting) {ok : Nat → Bool} (hn : n < 2 ^ 32)
    (hok : ok n = true) (f : Nat → WorkCfg → WorkCfg) :
    SettlesTo (s.setParam ok (beBytes 4 n) (fun t v => t.setCfg (f v)))
      (State.replied { s with cfg := f n s.cfg } 0x01 [] false) :=
  settlesTo_setParam (effect := fun t v => t.setCfg (f v)) h hmode hn hok rfl

theorem exec_setHoldTime (v : List Byte) (s : State) : exec (.setHoldTime v) s =
    s.setParam holdTimeOk v (fun t n => t.setCfg (fun c => { c with holdTime := n })) := rfl

theorem exec_setPatrolInterval (v : List Byte) (s : State) : exec (.setPatrolInterval v) s =
    s.setParam patrolIntervalOk v (fun t n => (t.setCfg (fun c => { c with patrolInterval := n })).newInterval) := rfl

theorem exec_setMigrationThreshold (v : List Byte) (s : State) : exec (.setMigrationThreshold v) s =
    s.setParam migThresholdOk v (fun t n => t.setCfg (fun c => { c with migThreshold := n })) := rfl

theorem exec_setSoftLimit (v : List Byte) (s : State) : exec (.setSoftLimit v) s =
    s.setParam softLimitOk v (fun t n => t.setCfg (fun c => { c with softLimit := n })) := rfl

theorem exec_setProgramTimeLimit (v : List Byte) (s : State) : exec (.setProgramTimeLimit v) s =
    s.setParam progLimitOk v (fun t n => t.setCfg (fun c => { c with progLimit := n })) := rfl

theorem exec_setAttentionMask (v : List Byte) (s : State) : exec (.setAttentionMask v) s =
    s.setParam attnMaskOk v (fun t n => t.setCfg (fun c => { c with attnMask := BitVec.ofNat 9 n })) := rfl

theorem exec_setWearLimit (v : List Byte) (s : State) : exec (.setWearLimit v) s =
    s.setParam wearLimitOk v State.newWearLimit := rfl

theorem exec_setReserveFloor (v : List Byte) (s : State) : exec (.setReserveFloor v) s =
    s.setParam reserveFloorOk v State.newFloor := rfl

/-- A new patrol interval stops the timer, or sets it anew in RUN. -/
theorem State.newInterval_eq (s : State) (n : Nat) :
    (s.setCfg (fun c => { c with patrolInterval := n })).newInterval =
      { s with
        cfg := { s.cfg with patrolInterval := n }
        timer := if n = 0 then none else if s.mode = .run then some n else s.timer } := by
  unfold State.newInterval
  by_cases hzero : n = 0
  · subst hzero
    rfl
  · by_cases hrun : s.mode = .run
    · simp [State.setCfg, State.startTimer, hzero, hrun]
    · simp [State.setCfg, hzero, hrun]

theorem State.newWearLimit_of_not_lowered (h : s.cfg.wearLimit ≤ n) :
    s.newWearLimit n = { s with cfg := { s.cfg with wearLimit := n } } := if_neg (Nat.not_lt.2 h)

/-! ### The space state recomputed (01 R18) -/

theorem PoolOnly.replied (h : PoolOnly s t) (status : Nat) :
    PoolOnly (s.replied status [] false) (t.replied status [] false) := by
  obtain ⟨_, _, _, _, _, _, _, _, _, _, rfl⟩ := h
  exact ⟨_, _, _, _, _, _, _, _, _, _, rfl⟩

/-- What is left where the space state was recomputed, the exhaustion condition judged and the frame answered OK. -/
structure Judged (s u t : State) : Prop where
  cfg : t.cfg = u.cfg
  space : t.space = u.spaceNow
  spaceNow : t.spaceNow = u.spaceNow
  serial : t.serial = (s.replied 0x01 [] false).serial
  remap : t.remap = u.remap
  shelves : SameShelves u t

theorem judged_of_settled (h : Settled (u.recompute.exhaust.replied 0x01 [] false) t) : Judged s u t := by
  have hends := poolEnds_of_settled ((poolOnly_exhaust u.recompute).replied 0x01) h
  have hserial : t.serial = (s.replied 0x01 [] false).serial := by
    obtain ⟨_, _, _, rfl, -⟩ := h
    rfl
  have hreply : SameShelves u.recompute (u.recompute.replied 0x01 [] false) := .of_lanes rfl rfl
  exact {
    cfg := hends.cfg.trans (keeps_recompute u).cfg
    space := hends.space.trans (State.recompute_space u)
    spaceNow := hends.spaceNow.trans (State.spaceNow_recompute u)
    serial := hserial
    remap := hends.remap.trans (State.recompute_remap u)
    shelves := ((sameShelves_recompute u).trans hreply).trans hends.sameShelves }

/-! ### FREE pages at or above a lowered wear limit (01 R15) -/

theorem shelvesOnly_retireFree (s : State) (p : PPage) : ShelvesOnly s (s.retireFree p) :=
  ((shelvesOnly_modLane s p.lane fun x => laneShelves_freeList x _).trans (shelvesOnly_retire _ p)).trans
    (shelvesOnly_give ..)

theorem shelvesOnly_retireFrees (ps : List PPage) (s : State) : ShelvesOnly s (ps.foldl State.retireFree s) :=
  .foldl shelvesOnly_retireFree ps s

theorem State.page_retireFree_self (h : p.index < (s.lane p.lane).pages.length) :
    (s.retireFree p).page p = { s.page p with state := .retired } := by
  rw [State.retireFree, State.page_give, State.page_retire, State.page_setPage_self _ _ (by rwa [State.lane_modLane]),
    State.page_modLane _ rfl]

theorem State.page_retireFree_of_ne (s : State) (h : q ≠ p) : (s.retireFree p).page q = s.page q := by
  rw [State.retireFree, State.page_give, State.page_retire, State.page_setPage_of_ne _ _ h, State.page_modLane _ rfl]

theorem State.page_retireFrees (hq : q.index < (s.lane q.lane).pages.length) (ps : List PPage) :
    (ps.foldl State.retireFree s).page q = if q ∈ ps then { s.page q with state := .retired } else s.page q := by
  induction ps generalizing s with
  | nil => rfl
  | cons p ps ih =>
    rw [List.foldl_cons, ih (by rwa [(shelvesOnly_retireFree s p).length])]
    by_cases hqp : q = p
    · subst hqp
      simp [State.page_retireFree_self hq]
    · simp [State.page_retireFree_of_ne s hqp, hqp]

theorem State.mem_markList_retireFrees (hp : p ∈ ps) (s : State) :
    p.index ∈ ((ps.foldl State.retireFree s).lane p.lane).markList := by
  induction ps generalizing s with
  | nil => cases hp
  | cons r ps ih =>
    rcases List.mem_cons.1 hp with rfl | hp
    · refine (shelvesOnly_retireFrees ps _).markList _ ?_
      rw [State.retireFree, State.lane_give]
      exact State.mem_markList_retire ..
    · exact ih hp _

/-- A FREE page withdrawn leaves the list of its lane, and no other. -/
theorem State.freeList_retireFree (s : State) (p : PPage) (l : LaneId) : ((s.retireFree p).lane l).freeList =
    if p.lane = l then (s.lane l).freeList.erase p.index else (s.lane l).freeList := by
  rw [State.retireFree, State.lane_give]
  by_cases hl : p.lane = l
  · subst hl
    rw [State.freeList_retire, State.lane_modLane, if_pos rfl]
  · have hother : l ≠ p.lane := Ne.symm hl
    rw [if_neg hl, State.retire, State.lane_modLane_of_ne _ _ hother, State.setPage, State.lane_modLane_of_ne _ _ hother,
      State.lane_modLane_of_ne _ _ hother]

theorem State.freeList_retireFrees (ps : List PPage) (s : State) (l : LaneId) :
    ((ps.foldl State.retireFree s).lane l).freeList =
      (s.lane l).freeList.diff ((ps.filter (fun p => p.lane = l)).map PPage.index) := by
  induction ps generalizing s with
  | nil => rfl
  | cons p ps ih =>
    rw [List.foldl_cons, ih, State.freeList_retireFree]
    by_cases hl : p.lane = l
    · simp [hl, List.diff_cons]
    · simp [hl]

/-- A list without those of its elements that satisfy a test. -/
theorem diff_filter {α : Type} [DecidableEq α] (xs : List α) (test : α → Bool) :
    xs.diff (xs.filter test) = xs.filter (fun x => !test x) := by
  induction xs with
  | nil => rfl
  | cons x xs ih =>
    by_cases hx : test x = true
    · simp [hx, List.diff_cons, ih]
    · rw [Bool.not_eq_true] at hx
      have hnot : x ∉ xs.filter test := by simp [hx]
      rw [List.filter_cons_of_neg (by simp [hx]), List.cons_diff_of_not_mem hnot, ih, List.filter_cons_of_pos (by simp [hx])]

/-- The pages of the lists of both lanes that a lowered wear limit withdraws. -/
def State.overLimits (s : State) : List PPage := s.overLimit .a ++ s.overLimit .b

theorem State.mem_overLimits : p ∈ s.overLimits ↔
    p.index ∈ (s.lane p.lane).freeList ∧ s.cfg.wearLimit ≤ (s.page p).wear := by
  obtain ⟨l, i⟩ := p
  cases l <;> simp [State.overLimits, State.overLimit]

/-- The pages of one lane that are withdrawn, in some order. -/
theorem State.overLimits_perm (s : State) (l : LaneId) :
    ((s.overLimits.filter (fun p => p.lane = l)).map PPage.index).Perm ((s.lane l).freeList.filter (fun i =>
      decide (s.cfg.wearLimit ≤ (s.page { lane := l, index := i }).wear))) := by
  have hindices : (s.overLimits.filter (fun p => p.lane = l)).map PPage.index = ((s.lane l).freeList.filter (fun i =>
      decide (s.cfg.wearLimit ≤ (s.page { lane := l, index := i }).wear))).reverse := by
    cases l <;> simp [State.overLimits, State.overLimit, List.filter_map, Function.comp_def]
  rw [hindices]
  exact List.reverse_perm _

/-- The wear limit is lowered: the FREE pages at or above it are withdrawn. -/
def State.limitLowered (s : State) (n : Nat) : State :=
  (s.setCfg (fun c => { c with wearLimit := n })).overLimits.foldl State.retireFree
    (s.setCfg (fun c => { c with wearLimit := n }))

theorem State.newWearLimit_of_lowered (h : n < s.cfg.wearLimit) :
    s.newWearLimit n = (s.limitLowered n).recompute.exhaust := if_pos h

theorem State.freeList_limitLowered (s : State) (n : Nat) (l : LaneId) : ((s.limitLowered n).lane l).freeList =
    (s.lane l).freeList.filter (fun i => decide ((s.page { lane := l, index := i }).wear < n)) := by
  have hperm := (s.setCfg (fun c => { c with wearLimit := n })).overLimits_perm l
  rw [State.limitLowered, State.freeList_retireFrees, hperm.diff_left, diff_filter]
  refine List.filter_congr fun i _ => ?_
  rw [← decide_not]
  exact decide_eq_decide.2 Nat.not_le

theorem State.limitLowered_retires (hi : i ∈ (s.lane l).freeList) (hwear : n ≤ (s.page { lane := l, index := i }).wear)
    (hindex : i < (s.lane l).pages.length) : i ∈ ((s.limitLowered n).lane l).markList ∧
      (s.limitLowered n).page { lane := l, index := i } = { s.page { lane := l, index := i } with state := .retired } := by
  have hover : { lane := l, index := i } ∈ (s.setCfg (fun c => { c with wearLimit := n })).overLimits :=
    State.mem_overLimits.2 ⟨hi, hwear⟩
  exact ⟨State.mem_markList_retireFrees hover _, (State.page_retireFrees hindex _).trans (if_pos hover)⟩

/-! ### SET_WINDOW (04 R71) -/

theorem exec_setWindow {ps : List Byte} {w : Window} (hw : windowParams s.cfg.capacity ps = some (n, w)) :
    exec (.setWindow ps) s = s.exchange ps.length (frameRefusal ps.length true false s.mounting (s.windowSealed n))
      ((s.setWindow n w).replied 0x01 [] false) := by
  change execSetWindow ps s = _
  rw [execSetWindow, hw]
  rfl

theorem State.windowSealed_eq_false (h : (s.cfg.windows[n]?).all (fun v => v.protection != .sealed) = true) :
    s.windowSealed n = false := by
  rw [State.windowSealed]
  cases hw : s.cfg.windows[n]? with
  | none => rfl
  | some w => simpa [hw] using h

theorem setWindow_outcomes (h : s.Listening) (hn : n ≤ 3) {w : Window} (hfirst : w.first < 65536) (hlast : w.last < 65536)
    (hprotection : w.protection ≠ .sealed) (hrange : w.last < w.first ∨ w.last < s.cfg.capacity) :
    let ps : List Byte := BitVec.ofNat 8 n :: windowBytes w
    (s.mode ≠ .mounting → (s.cfg.windows[n]?).all (fun v => v.protection != .sealed) = true →
      SettlesTo (exec (.setWindow ps) s)
        (State.replied { s with cfg := { s.cfg with windows := s.cfg.windows.set n w } } 0x01 [] false)) ∧
    (s.mode ≠ .mounting → (s.cfg.windows[n]?).any (fun v => v.protection == .sealed) = true →
      exec (.setWindow ps) s = .next (s.replied 0x15 [] false)) ∧
    (s.mode = .mounting → exec (.setWindow ps) s = .next (s.replied 0x14 [] false)) := by
  intro ps
  have hlength : ps.length = 7 := congrArg (· + 1) (length_windowBytes w)
  have hshort : ps.length ≤ 16 := by omega
  have hbytes : ps.length ≤ 255 := by omega
  rw [exec_setWindow (windowParams_windowBytes hn hfirst hlast hprotection hrange)]
  refine ⟨fun hmode hopen => ?_, fun hmode hsealed => ?_, fun hmode => ?_⟩
  · rw [State.mounting_eq_false.2 hmode, State.windowSealed_eq_false hopen]
    exact settlesTo_exchange h hbytes (frameRefusal_none hshort) h.1.2
  · rw [State.mounting_eq_false.2 hmode, show s.windowSealed n = true from hsealed]
    exact State.exchange_of_some h hbytes (frameRefusal_conflict hshort)
  · rw [State.mounting_eq_true.2 hmode]
    exact State.exchange_of_some h hbytes (frameRefusal_wrongMode hshort)

/-! ### The reserve floor and the wear limit (01 R15, R18) -/

theorem setReserveFloor_judged (h : s.Listening) (hmode : s.mode ≠ .mounting) (hlow : 2 ≤ n) (hhigh : n ≤ 64) :
    ∃ t, exec (.setReserveFloor (beBytes 4 n)) s = .next t ∧
      Settled ((s.setCfg (fun c => { c with reserveFloor := n })).recompute.exhaust.replied 0x01 [] false) t := by
  have hlink := (poolOnly_exhaust (s.setCfg (fun c => { c with reserveFloor := n })).recompute).link.trans
    (mapOnly_recompute (s.setCfg (fun c => { c with reserveFloor := n }))).link
  rw [exec_setReserveFloor]
  exact settlesTo_setParam (effect := State.newFloor) h hmode (by omega)
    (by simp [reserveFloorOk, hlow, hhigh]) hlink

theorem setWearLimit_judged (h : s.Listening) (hmode : s.mode ≠ .mounting) (hlow : 1000 ≤ n) (hhigh : n ≤ 16000000)
    (hless : n < s.cfg.wearLimit) : ∃ t, exec (.setWearLimit (beBytes 4 n)) s = .next t ∧
      Settled ((s.limitLowered n).recompute.exhaust.replied 0x01 [] false) t := by
  have hlink := (poolOnly_exhaust (s.limitLowered n).recompute).link.trans
    ((mapOnly_recompute (s.limitLowered n)).link.trans (shelvesOnly_retireFrees _ _).link)
  have hsettles := settlesTo_setParam (ok := wearLimitOk) (effect := State.newWearLimit) h hmode
    (n := n) (by omega) (by simp [wearLimitOk, hlow, hhigh]) (by rw [State.newWearLimit_of_lowered hless]; exact hlink)
  rwa [State.newWearLimit_of_lowered hless, ← exec_setWearLimit] at hsettles

/-- Settles O56: each parameter by its effect, and the window by its own and the frame's checks. -/
theorem parametersAndWindowsSet : Obligations.ParametersAndWindowsSet := by
  refine ⟨fun s n h hmode => ⟨fun hn => ?_, fun hn => ?_, fun hn => ?_, fun hlow hhigh => ?_, fun hlow hhigh => ?_,
    fun hn => ?_, fun hlow hhigh => ?_, fun hlow hhigh => ⟨fun hnot => ?_, fun hless => ?_⟩⟩,
    fun s n w h hn hfirst hlast hprotection hrange => setWindow_outcomes h hn hfirst hlast hprotection hrange⟩
  · rw [exec_setHoldTime]
    exact settlesTo_setCfg h hmode (by omega) (decide_eq_true hn) (fun n c => { c with holdTime := n })
  · have hsettles := settlesTo_setParam (ok := patrolIntervalOk)
      (effect := fun t n => (t.setCfg (fun c => { c with patrolInterval := n })).newInterval) (n := n) h hmode (by omega)
      (decide_eq_true hn) (by rw [State.newInterval_eq])
    rwa [State.newInterval_eq, ← exec_setPatrolInterval] at hsettles
  · rw [exec_setMigrationThreshold]
    exact settlesTo_setCfg h hmode (by omega) (by simpa [migThresholdOk] using hn) (fun n c => { c with migThreshold := n })
  · rw [exec_setSoftLimit]
    exact settlesTo_setCfg h hmode (by omega) (by simp [softLimitOk, hlow, hhigh]) (fun n c => { c with softLimit := n })
  · rw [exec_setProgramTimeLimit]
    exact settlesTo_setCfg h hmode (by omega) (by simp [progLimitOk, hlow, hhigh]) (fun n c => { c with progLimit := n })
  · rw [exec_setAttentionMask]
    exact settlesTo_setCfg h hmode (by omega) (decide_eq_true hn) (fun n c => { c with attnMask := BitVec.ofNat 9 n })
  · obtain ⟨t, hexec, hsettled⟩ := setReserveFloor_judged h hmode hlow hhigh
    have hjudged : Judged s _ t := judged_of_settled hsettled
    refine ⟨t, hexec, hjudged.cfg, hjudged.space.trans hjudged.spaceNow.symm, hjudged.serial, hjudged.remap,
      fun hsame hexh => ?_⟩
    have hcalm := State.exhaust_of_not (s := s.setCfg (fun c => { c with reserveFloor := n })) hexh
    rw [State.recompute_of_same _ (hjudged.space.symm.trans hsame), hcalm] at hsettled
    exact ⟨hsettled.notices, hsettled.slots⟩
  · have hsettles := settlesTo_setParam (ok := wearLimitOk) (effect := State.newWearLimit) (n := n) h hmode (by omega)
      (by simp [wearLimitOk, hlow, hhigh]) (by rw [State.newWearLimit_of_not_lowered hnot])
    rwa [State.newWearLimit_of_not_lowered hnot, ← exec_setWearLimit] at hsettles
  · obtain ⟨t, hexec, hsettled⟩ := setWearLimit_judged h hmode hlow hhigh hless
    have hjudged : Judged s _ t := judged_of_settled hsettled
    have hretires := shelvesOnly_retireFrees (s.setCfg (fun c => { c with wearLimit := n })).overLimits
      (s.setCfg (fun c => { c with wearLimit := n }))
    refine ⟨t, hexec, hjudged.cfg.trans hretires.cfg, hjudged.space.trans hjudged.spaceNow.symm, hjudged.serial,
      hjudged.remap.trans hretires.remap, fun l => ?_⟩
    refine ⟨(hjudged.shelves.freeList l).trans (s.freeList_limitLowered n l), fun i hi hwear hindex => ?_⟩
    obtain ⟨hmark, hpage⟩ := State.limitLowered_retires hi hwear hindex
    exact ⟨hjudged.shelves.markList l ▸ hmark, (hjudged.shelves.page _).trans hpage⟩

end Sys2Proof.Machine
end

section
/-! PROOFS. The queue of waiting commands (log 4): a step takes the front command off it, and the command itself leaves
the queue as it stands. Every block's operation keeps the queue, by `Keeps` or `Bounds`; a command does one of them and
lets the step settle, or does nothing, or leaves the cold part, which keeps the queue too. -/

namespace Sys2Proof.Machine

variable {s t u : State} {o : Host.Outcome State Fault Refusal}

/-! ### The queue under what the commands do -/

@[simp] theorem State.settle_pending (s : State) : s.settle.pending = s.pending := (keeps_settle s).pending
@[simp] theorem State.seal_pending (s : State) (k : Nat) : (s.seal k).pending = s.pending := (keeps_seal s k).pending

@[simp] theorem State.setCauses_pending (s : State) (c : Causes) : (s.setCauses c).pending = s.pending :=
  (bounds_setCauses s c).pending

@[simp] theorem State.setPwarn_pending (s : State) (level : Bool) : (s.setPwarn level).pending = s.pending :=
  (bounds_setPwarn s level).pending

@[simp] theorem State.patrolExpiry_pending (s : State) : s.patrolExpiry.pending = s.pending :=
  (bounds_patrolExpiry s).pending

@[simp] theorem State.goOffline_pending (s : State) (l : LaneId) (page : Option Nat) (cause : Nat) :
    (s.goOffline l page cause).pending = s.pending := (bounds_goOffline s l page cause).pending

@[simp] theorem State.readyComes_pending (s : State) (l : LaneId) : (s.readyComes l).pending = s.pending :=
  (keeps_readyComes s l).pending

/-! ### The queue under a grant's claimant (06 R100) -/

@[simp] theorem State.grant_pending (s : State) (l : LaneId) (c : Claim) (ready : Bool) :
    (s.grant l c ready).pending = s.pending := rfl

@[simp] theorem State.grantHostRead_pending (s : State) (l : LaneId) (second ready : Bool) :
    (s.grantHostRead l second ready).pending = s.pending := (keeps_grantHostRead s l second ready).pending

@[simp] theorem State.grantFillRead_pending (s : State) (l : LaneId) (k : Nat) (ready : Bool) :
    (s.grantFillRead l k ready).pending = s.pending := (keeps_grantFillRead s l k ready).pending

@[simp] theorem State.grantRecord_pending (s : State) (ready : Bool) : (s.grantRecord ready).pending = s.pending :=
  (keeps_grantRecord s ready).pending

@[simp] theorem State.grantCommit_pending (s : State) (l : LaneId) (ready : Bool) :
    (s.grantCommit l ready).pending = s.pending := (keeps_grantCommit s l ready).pending

@[simp] theorem State.relocationGrant_pending (s : State) (l : LaneId) (ready : Bool) :
    (s.relocationGrant l ready).pending = s.pending := (keeps_relocationGrant s l ready).pending

@[simp] theorem State.grantMark_pending (s : State) (l : LaneId) (ready : Bool) :
    (s.grantMark l ready).pending = s.pending := (keeps_grantMark s l ready).pending

@[simp] theorem State.patrolGrant_pending (s : State) (l : LaneId) (ready : Bool) :
    (s.patrolGrant l ready).pending = s.pending := (keeps_patrolGrant s l ready).pending

/-! ### The queue under the end of a lane's operation -/

@[simp] theorem State.hostReadDone_pending (s : State) (l : LaneId) (second : Bool) (n i q : Nat) (bytes : List Byte) :
    (s.hostReadDone l second n i q bytes).pending = s.pending := (keeps_hostReadDone s l second n i q bytes).pending

@[simp] theorem State.fillReadDone_pending (s : State) (l : LaneId) (k n i q : Nat) (bytes : List Byte) :
    (s.fillReadDone l k n i q bytes).pending = s.pending := (keeps_fillReadDone s l k n i q bytes).pending

@[simp] theorem State.relocationDone_pending (s : State) (l : LaneId) (n i q : Nat) (bytes : List Byte) :
    (s.relocationDone l n i q bytes).pending = s.pending := (keeps_relocationDone s l n i q bytes).pending

@[simp] theorem State.patrolDone_pending (s : State) (l : LaneId) (n i q : Nat) (bytes : List Byte) :
    (s.patrolDone l n i q bytes).pending = s.pending := (keeps_patrolDone s l n i q bytes).pending

@[simp] theorem State.commitProgrammed_pending (s : State) (l : LaneId) (k i q : Nat) (data : List Byte) :
    (s.commitProgrammed l k i q data).pending = s.pending := (keeps_commitProgrammed s l k i q data).pending

@[simp] theorem State.commitVerified_pending (s : State) (l : LaneId) (k i q : Nat) (data bytes : List Byte) :
    (s.commitVerified l k i q data bytes).pending = s.pending := (keeps_commitVerified s l k i q data bytes).pending

@[simp] theorem State.recordProgrammed_pending (s : State) (i : Nat) (c : WorkCfg) (base q : Nat) (data : List Byte) :
    (s.recordProgrammed i c base q data).pending = s.pending := (keeps_recordProgrammed s i c base q data).pending

@[simp] theorem State.recordVerified_pending (s : State) (i base : Nat) (data bytes : List Byte) :
    (s.recordVerified i base data bytes).pending = s.pending := (bounds_recordVerified s i base data bytes).pending

@[simp] theorem State.markDone_pending (s : State) (l : LaneId) (i : Nat) : (s.markDone l i).pending = s.pending :=
  (bounds_markDone s l i).pending

/-! ### The queue under the events of a mount (chapter 9) -/

@[simp] theorem State.mountReady_pending (s : State) (l : LaneId) : (s.mountReady l).pending = s.pending :=
  (bounds_mountReady s l).pending

@[simp] theorem State.systemRead_pending (s : State) (bytes : List Byte) : (s.systemRead bytes).pending = s.pending :=
  (bounds_systemRead s bytes).pending

@[simp] theorem State.scanRead_pending (s : State) (l : LaneId) (bytes : List Byte) :
    (s.scanRead l bytes).pending = s.pending := (bounds_scanRead s l bytes).pending

/-! ### The queue under the frames of the maintenance port (chapter 11) -/

@[simp] theorem State.popSent_pending (s : State) : s.popSent.pending = s.pending := (bounds_popSent s).pending

@[simp] theorem State.newInterval_pending (s : State) : s.newInterval.pending = s.pending :=
  (bounds_newInterval s).pending

@[simp] theorem State.newWearLimit_pending (s : State) (n : Nat) : (s.newWearLimit n).pending = s.pending :=
  (bounds_newWearLimit s n).pending

@[simp] theorem State.newFloor_pending (s : State) (n : Nat) : (s.newFloor n).pending = s.pending :=
  (bounds_newFloor s n).pending

@[simp] theorem State.setWindow_pending (s : State) (n : Nat) (w : Window) : (s.setWindow n w).pending = s.pending :=
  rfl

@[simp] theorem State.accept_pending (s : State) (c : LongCmd) : (s.accept c).pending = s.pending := rfl
@[simp] theorem State.postRecord_pending (s : State) : s.postRecord.pending = s.pending := (keeps_postRecord s).pending
@[simp] theorem State.startFlush_pending (s : State) : s.startFlush.pending = s.pending := (bounds_startFlush s).pending

@[simp] theorem State.startQuiesce_pending (s : State) : s.startQuiesce.pending = s.pending :=
  (bounds_startQuiesce s).pending

@[simp] theorem State.beginRemount_pending (s : State) : s.beginRemount.pending = s.pending :=
  (bounds_beginRemount s).pending

/-! ### Outcomes -/

/-- Every next state that the outcome gives has the queue of the state before. -/
def LeavesQueue (s : State) (o : Host.Outcome State Fault Refusal) : Prop := ∀ t, o = .next t → t.pending = s.pending

theorem leavesQueue_next (h : t.pending = s.pending) : LeavesQueue s (.next t) := fun _ e => by cases e; exact h

theorem leavesQueue_settle (h : u.pending = s.pending) : LeavesQueue s (.next u.settle) :=
  leavesQueue_next (u.settle_pending.trans h)

theorem leavesQueue_same : LeavesQueue s (.next s) := leavesQueue_next rfl

theorem leavesQueue_refused {r : Refusal} : LeavesQueue s (.refused r) := fun _ e => by cases e

theorem leavesQueue_fault {f : Fault} : LeavesQueue s (.fault f) := fun _ e => by cases e

theorem leavesQueue_ite {p : Prop} [Decidable p] {q : Host.Outcome State Fault Refusal} (ho : LeavesQueue s o)
    (hq : LeavesQueue s q) : LeavesQueue s (if p then o else q) := by
  split
  · exact ho
  · exact hq

/-- A completed page read of another length than a page's stops, and so leaves no next state (06 R97). -/
theorem leavesQueue_pageRead {bytes : List Byte} (ho : LeavesQueue s o) :
    LeavesQueue s (if bytes.length = Config.pageBytes then o else .fault .transferLength) :=
  leavesQueue_ite ho leavesQueue_fault

/-- A frame leaves the queue where its effect does; its refusal answers and changes nothing else (11 R161). -/
theorem leavesQueue_exchange {params : Nat} {refused : Option Nat} {accepted : State}
    (h : accepted.pending = s.pending) : LeavesQueue s (s.exchange params refused accepted) := by
  refine leavesQueue_ite (leavesQueue_ite ?_ leavesQueue_same) leavesQueue_refused
  split
  · exact leavesQueue_next rfl
  · exact leavesQueue_settle h

theorem leavesQueue_setParam {ok : Nat → Bool} {v : List Byte} {effect : State → Nat → State}
    (h : ∀ n, (effect s n).pending = s.pending) : LeavesQueue s (s.setParam ok v effect) :=
  leavesQueue_exchange (h _)

/-! ### Every command -/

theorem exec_leavesQueue (c : Instr) (s : State) : LeavesQueue s (exec c s) := by
  cases c with
  | powerOn | wprotAssertion | wprotDeassertion | selectEnd => exact leavesQueue_next rfl
  | powerLoss | resetAssertion | selectStart => exact leavesQueue_ite (leavesQueue_next rfl) leavesQueue_same
  | resetDeassertion => exact leavesQueue_ite (leavesQueue_settle rfl) leavesQueue_same
  | pwarnAssertion | pwarnDeassertion | mountWaitReady | popNoticeSent => exact leavesQueue_settle (by simp)
  | patrolTimerExpiry | readySeen => exact leavesQueue_ite (leavesQueue_settle (by simp)) leavesQueue_same
  | hostWrite | hostRead | holdTimerExpiry =>
    exact leavesQueue_ite (leavesQueue_ite (leavesQueue_settle (by simp)) leavesQueue_same) leavesQueue_refused
  | readTimeout | programTimeout | readyTimeout | hostReadGrant | fillReadGrant | recordProgramGrant | commitGrant
  | relocationReadGrant | markGrant | patrolReadGrant | commitProgramDone | recordProgramDone | markProgramDone =>
    simp only [exec, execReadTimeout, execProgramTimeout, execReadyTimeout, execHostReadGrant, execFillReadGrant,
      execRecordProgramGrant, execCommitGrant, execRelocationReadGrant, execMarkGrant, execPatrolReadGrant,
      execCommitProgramDone, execRecordProgramDone, execMarkProgramDone]
    split
    · exact leavesQueue_settle (by simp)
    · exact leavesQueue_same
  | systemPageReadDone | scanReadDone => exact leavesQueue_pageRead (leavesQueue_settle (by simp))
  | hostReadDone | fillReadDone | relocationReadDone | patrolReadDone | commitVerifyDone | recordReadBackDone =>
    refine leavesQueue_pageRead ?_
    split
    · exact leavesQueue_settle (by simp)
    · exact leavesQueue_same
  | getStatus | getConfig | getPools | getCounters | inspectLogical | inspectPhysical | clearFaults | resume | saveConfig
  | flush | quiesce | format | remount => exact leavesQueue_exchange (by simp)
  | popNotice =>
    refine leavesQueue_exchange ?_
    split <;> rfl
  | setHoldTime | setPatrolInterval | setMigrationThreshold | setWearLimit | setSoftLimit | setReserveFloor
  | setProgramTimeLimit | setAttentionMask =>
    simp only [exec, execSetHoldTime, execSetPatrolInterval, execSetMigrationThreshold, execSetWearLimit,
      execSetSoftLimit, execSetReserveFloor, execSetProgramTimeLimit, execSetAttentionMask]
    exact leavesQueue_setParam fun _ => by simp
  | setWindow | sealWindow | setCapacity =>
    simp only [exec, execSetWindow, execSealWindow, execSetCapacity]
    split
    · exact leavesQueue_exchange rfl
    · exact leavesQueue_exchange (by simp)
  | badFrame =>
    exact leavesQueue_ite (leavesQueue_ite (leavesQueue_next rfl) leavesQueue_same) leavesQueue_refused
  | unknownCommand =>
    simp only [exec, execUnknownCommand]
    split
    · exact leavesQueue_exchange rfl
    · exact leavesQueue_ite leavesQueue_same leavesQueue_refused

/-- Settles O2, command by command: each operation keeps the queue, and so does the end of the step. -/
theorem commandsLeaveTheQueue : Obligations.CommandsLeaveTheQueue := exec_leavesQueue

/-! ### The step -/

/-- Settles O1: with a command at the front of the queue, a step is its second branch. -/
theorem stepRunsFrontCommand : Obligations.StepRunsFrontCommand := by
  intro c rest s h
  rw [step, h]

end Sys2Proof.Machine
end
